-- ==== Sys2Proof/Word.lean ====
section
/-! DEFINITION. The word types of the block (00_scope R7, R8): bytes, bus words and the time-source value. -/

namespace Sys2Proof

/-- A byte: 8 bits, unsigned (R7). -/
abbrev Byte := BitVec 8

/-- A bus word, a register or a SHA-1 word: 32 bits, unsigned (R8, R65, R180). -/
abbrev Word := BitVec 32

/-- A value of the time_s port: 64 bits, unsigned, seconds since the Unix epoch (R22, R256). -/
abbrev Seconds := BitVec 64

end Sys2Proof
end

