-- ==== Sys2Proof/Syntax.lean ====
section
/-! DEFINITION. The commands of the block: one constructor per row of spec/opcode_table.json (30_encoding R80, R81). -/

namespace Sys2Proof

/-- A command. IE is the only value carried in a command word (R82); all other operands are implicit registers (R84). -/
inductive Instr where
  /-- OP 0x0 (R101). -/
  | nop (ie : Bool)
  /-- OP 0x1 (R132). -/
  | decode (ie : Bool)
  /-- OP 0x2 (R156). -/
  | generate (ie : Bool)
deriving DecidableEq, Repr

end Sys2Proof
end

