-- ==== Sys2Proof/WellFormed.lean ====
section
/-! DEFINITION. What software is asked to write: command words as the assembler gives them (30_encoding R83, R85, R87) and
aligned offsets (20_memory R64). The block gives every other word and offset a meaning too; nothing here restricts a step. -/

namespace Sys2Proof

/-- An instruction is well formed when its one operand field, IE, fits its one bit (R80). The type says so already:
every term of Instr is well formed, and no check can refuse one. -/
def Instr.WellFormed : Instr → Prop
  | .nop _ => True
  | .decode _ => True
  | .generate _ => True

/-- Bits [7:4] are written as 0 (R83). -/
def wordLowReservedClear (w : Word) : Bool := w &&& 0x000000F0 == 0

/-- Bits [31:9] are written as 0 (R83). -/
def wordHighReservedClear (w : Word) : Bool := w &&& 0xFFFFFE00 == 0

/-- OP is not one of the reserved values 0x3 to 0xF (R85). -/
def wordOpDefined (w : Word) : Bool := (w &&& 0x0000000F).toNat < 3

/-- A command word as R87 assembles it: `(ie << 8) | OP` with a defined OP. -/
def commandWordWellFormed (w : Word) : Bool :=
  wordLowReservedClear w && wordHighReservedClear w && wordOpDefined w

/-- An offset an access may use without a bus error: `off[1:0] = 0` (R64). -/
def offsetAligned (off : BitVec 10) : Bool := off.toNat % 4 == 0

end Sys2Proof
end

