-- ==== Sys2Proof/Decode.lean ====
section
/-! DEFINITION. The command decoder (30_encoding R80 to R86), total on 32-bit words and rejecting by name, and the assembler's
encoder (R87). -/

namespace Sys2Proof

/-- Why a command word is no row of the opcode table. -/
inductive Reject where
  /-- OP 0x3 to 0xF (R85). The word's IE bit is still stored (R82), so the rejection carries it. -/
  | reservedOp (op : BitVec 4) (ie : Bool)
deriving DecidableEq, Repr

/-- OP, bits [3:0] (R80). -/
def opField (w : Word) : BitVec 4 := w.extractLsb' 0 4

/-- IE, bit [8] (R80). -/
def ieField (w : Word) : Bool := w.getLsbD 8

/-- The opcode map of R81, by its match and mask. Reserved bits are not looked at (R83). -/
def decodeWord (w : Word) : Except Reject Instr :=
  if w &&& 0x0000000F = 0x00000000 then .ok (.nop (ieField w))
  else if w &&& 0x0000000F = 0x00000001 then .ok (.decode (ieField w))
  else if w &&& 0x0000000F = 0x00000002 then .ok (.generate (ieField w))
  else .error (.reservedOp (opField w) (ieField w))

/-- The word R87 assembles from an OP and `ie=`: `(ie << 8) | OP`. -/
def assemble (op : Word) (ie : Bool) : Word := ((if ie then 1 else 0) <<< 8) ||| op

/-- The word of a command (R81, R87). -/
def encode : Instr → Word
  | .nop ie => assemble 0x0 ie
  | .decode ie => assemble 0x1 ie
  | .generate ie => assemble 0x2 ie

/-- The 32-bit bus word whose low `nbits` bits are those of `w`, every bit above them 0. -/
def tableWord (nbits w : Nat) : Word := BitVec.ofNat 32 (w % 2 ^ nbits)

/-- The instruction the decoder reads from the bits of an opcode-table row. A command word is one bus word, so no bytes are laid
out in a memory (R86). -/
def decodeTableWord (nbits w : Nat) : Option Instr :=
  match decodeWord (tableWord nbits w) with
  | .ok i => some i
  | .error _ => none

/- The decoding of every constructor, on words written out from R80's pattern rrrrrrrrrrrrrrrrrrrrrrrerrrrOOOO. -/

theorem decode_nop_ie0 : decodeWord 0b00000000000000000000000000000000 = .ok (.nop false) := by decide
theorem decode_nop_ie1 : decodeWord 0b00000000000000000000000100000000 = .ok (.nop true) := by decide
theorem decode_decode_ie0 : decodeWord 0b00000000000000000000000000000001 = .ok (.decode false) := by decide
theorem decode_decode_ie1 : decodeWord 0b00000000000000000000000100000001 = .ok (.decode true) := by decide
theorem decode_generate_ie0 : decodeWord 0b00000000000000000000000000000010 = .ok (.generate false) := by decide
theorem decode_generate_ie1 : decodeWord 0b00000000000000000000000100000010 = .ok (.generate true) := by decide

end Sys2Proof
end

