-- ==== Sys2Proof/Config.lean ====
section
/-! DEFINITION. What an instance of the block fixes (the OPEN parameters of 92_eei_decisions) and the one free value of the model. -/

namespace Sys2Proof

/-- The parameters of one instance of the block. A state carries them because a step takes a state alone.
No step changes them (log entry 9, DESIGN CHOICE). -/
structure Params where
  /-- SECRET_MAX, the number of secret bytes the block holds, 1 to 256, default 256 (R5). -/
  secretMax : Nat
  /-- BLOCK_BASE divided by 1024: the base is any 1 KiB-aligned platform address (R60, 92 D2). -/
  blockPage : Nat
deriving DecidableEq, Repr

/-- SECRET_MAX at the spec's default (R5), BLOCK_BASE at 0 (log entry 9, DESIGN CHOICE). -/
def Params.default : Params := { secretMax := 256, blockPage := 0 }

/-- The legal range of the parameters (R5). -/
def Params.Legal (p : Params) : Prop := 1 ≤ p.secretMax ∧ p.secretMax ≤ 256

/-- FREE VALUE: what the n-th read of a result register or KEY word made while BUSY returns (R108, 93 U1).
Nothing constrains it; the counter it is applied to is State.draws (log entry 5). -/
opaque Config.freeWord : Nat → Word

end Sys2Proof
end

