-- ==== Sys2Proof/Machine/State.lean ====
section
/-! DEFINITION. The state of the block (10_state) as plain data, its reset values (R47), and the reasons a step can stop. -/

namespace Sys2Proof.Machine

open Sys2Proof

/-- A byte buffer: (index, byte) pairs, indexes strictly rising, no byte 0 listed. An unlisted byte reads 0, the reset content
R34, R38, R44 and R47 give. `Memory.wf` (Ops.lean) is this form. -/
abbrev Memory := List Host.Cell

/-- The sequencing state (R43). -/
inductive Phase where
  | idle
  | busy
deriving DecidableEq, Repr

/-- A command that runs: cur_op (R43). -/
inductive Op where
  | decode
  | generate
deriving DecidableEq, Repr

/-- The error outcomes of a command (R240). -/
inductive Err where
  | emptySecret
  | invalidPaddingCount
  | invalidPaddingPlacement
  | invalidCharacter
  | illegalCommand
  | secretTooLong
deriving DecidableEq, Repr

/-- The input snapshot a command takes at its start (R43, R102). -/
structure Snap where
  len : BitVec 16
  secret : List Byte
  tslice : Word
  time : Seconds
deriving DecidableEq, Repr

/-- The result registers of GENERATE (R36, R39 to R42). -/
structure GenRegs where
  /-- TS_USED (R36). -/
  tsUsed : Word
  /-- TRUNC[30:0]; bit 31 always reads 0 (R39). -/
  trunc : BitVec 31
  /-- CODE[19:0]; bits [31:20] read 0 (R40). -/
  code : BitVec 20
  /-- CODE_STR0 (R41). -/
  codeStr0 : Word
  /-- CODE_STR1[15:0]; bits [31:16] always read 0 (R41). -/
  codeStr1 : BitVec 16
  /-- MAC0 to MAC4 (R42). -/
  mac0 : Word
  mac1 : Word
  mac2 : Word
  mac3 : Word
  mac4 : Word
deriving DecidableEq, Repr

/-- All GENERATE result registers 0: their reset value (R47) and what a failed GENERATE writes (R158). -/
def GenRegs.zero : GenRegs :=
  { tsUsed := 0, trunc := 0, code := 0, codeStr0 := 0, codeStr1 := 0, mac0 := 0, mac1 := 0, mac2 := 0, mac3 := 0, mac4 := 0 }

/-- One coming clock cycle: the levels at the input ports (R22) and the engine's own move (R104). -/
structure ClockCycle where
  /-- rst_n; false is reset (R270). -/
  rstN : Bool
  /-- bus_sel: an access is presented. -/
  sel : Bool
  /-- bus_write: true is a write. -/
  write : Bool
  /-- bus_addr: the byte offset in the window. -/
  addr : BitVec 10
  /-- bus_wdata. -/
  wdata : Word
  /-- time_s. -/
  timeS : Seconds
  /-- Whether a command that was running when the cycle began completes in it. LATENCY is OPEN, so this is free (R104, log entry 3). -/
  finish : Bool
deriving DecidableEq, Repr

/-- The state. Each field names the rule that gives it; INVENTORY.md lists them with their reset values. -/
structure State where
  /-- The instance's parameters, changed by no step (R5). -/
  params : Params
  /-- CTRL.IE (R26). -/
  ie : Bool
  /-- The phase; STATUS.BUSY is this bit (R28, R43). -/
  phase : Phase
  /-- STATUS.DONE (R29). -/
  done : Bool
  /-- STATUS.DROPPED (R30). -/
  dropped : Bool
  /-- STATUS.ERRCODE (R31). -/
  errcode : BitVec 4
  /-- STATUS.LASTOP (R32). -/
  lastop : BitVec 4
  /-- SECRET_LEN (R33). -/
  secretLen : BitVec 16
  /-- The SECRET buffer (R34). -/
  secret : Memory
  /-- TSLICE (R35). -/
  tslice : Word
  /-- The GENERATE result registers (R36, R39 to R42). -/
  gen : GenRegs
  /-- KEY_LEN (R37). -/
  keyLen : BitVec 16
  /-- The KEY buffer (R38). -/
  key : Memory
  /-- cur_op (R43). Its values while IDLE are the model's choice (log entries 6 and 18). -/
  curOp : Op
  /-- snap (R43). Its values while IDLE are the model's choice (log entries 6, 7 and 18). -/
  snap : Snap
  /-- The internal key storage (R44), loaded and zeroed within one completion (log entry 8). -/
  ikey : Memory
  /-- The level at time_s in the current cycle (R22, log entry 4). -/
  timeS : Seconds
  /-- bus_rdata of the last cycle, when it was a read (R22, log entry 11). -/
  busRdata : Option Word
  /-- bus_err of the last cycle (R22, R64). -/
  busErr : Bool
  /-- MODEL'S OWN: the coming cycles, the next one first (log entries 1 and 2). -/
  inputs : List ClockCycle
  /-- MODEL'S OWN: how many free values have been drawn (log entry 5). -/
  draws : Nat
deriving DecidableEq, Repr

/-- Why a step could stop for good. The spec gives every access, command and event an effect, and every error it names is
reported in STATUS or on bus_err while the block goes on (R103, R105, R247), so there is no constructor. -/
inductive Fault where
deriving DecidableEq, Repr

/-- Why an instruction has no meaning. -/
inductive Refusal where
  /-- Raised by a refused arm of exec, for an instruction not modelled yet (safe). No arm of this model raises it. -/
  | notModelled (mnemonic : String)
deriving DecidableEq, Repr

/-- The block right after reset, at the spec's default parameters (R47, R270, R271): every value R47 gives.
cur_op and snap, which R47 leaves unspecified, are at the values log entry 6 names. -/
def State.reset : State where
  params := Params.default
  ie := false
  phase := .idle
  done := false
  dropped := false
  errcode := 0
  lastop := 0
  secretLen := 0
  secret := []
  tslice := 0
  gen := GenRegs.zero
  keyLen := 0
  key := []
  curOp := .decode
  snap := { len := 0, secret := [], tslice := 0, time := 0 }
  ikey := []
  timeS := 0
  busRdata := none
  busErr := false
  inputs := []
  draws := 0

end Sys2Proof.Machine
end

