-- ==== Sys2Proof/Machine/Ops.lean ====
section
/-! DEFINITION. The named operations over bytes, buffers and registers: byte order (R9), the sparse buffers (R34, R38, R44),
the moves of the phase (R102, R103), the one error entry with its acknowledgement beside it (R252, R253), dropping (R106), reset (R270). -/

namespace Sys2Proof.Machine

open Sys2Proof

/-! ### Bytes and words (R8, R9) -/

/-- `LE32`: the first byte is the least significant (R9). -/
def le32 (b0 b1 b2 b3 : Byte) : Word :=
  BitVec.ofNat 32 (b0.toNat + b1.toNat * 2 ^ 8 + b2.toNat * 2 ^ 16 + b3.toNat * 2 ^ 24)

/-- `BE32`: the first byte is the most significant (R9). -/
def be32 (b0 b1 b2 b3 : Byte) : Word :=
  BitVec.ofNat 32 (b0.toNat * 2 ^ 24 + b1.toNat * 2 ^ 16 + b2.toNat * 2 ^ 8 + b3.toNat)

/-- The byte `w[8k+7 : 8k]` (R7). -/
def byteOf (w : Word) (k : Nat) : Byte := w.extractLsb' (8 * k) 8

/-- `BEbytes32`: `w[31:24], w[23:16], w[15:8], w[7:0]` (R9). -/
def beBytes32 (w : Word) : List Byte := [byteOf w 3, byteOf w 2, byteOf w 1, byteOf w 0]

/-- `BEbytes64`: the 8 bytes of a 64-bit value, most significant first (R9). -/
def beBytes64 (w : BitVec 64) : List Byte :=
  (List.range 8).map fun i => w.extractLsb' (8 * (7 - i)) 8

/-- `zeros(n)` (R9). -/
def zeros (n : Nat) : List Byte := List.replicate n 0

/-- `b[i]`, 0 past the end (every use stays inside). -/
def byteAt (b : List Byte) (i : Nat) : Byte := b.getD i 0

/-- `ROTL_n(x)` (R8). -/
def rotl (n : Nat) (x : Word) : Word := (x <<< n) ||| (x >>> (32 - n))

/-! ### Byte buffers -/

/-- Byte `a` of a buffer; an unlisted byte is 0 (R47). -/
def Memory.read : Memory → Nat → Byte
  | [], _ => 0
  | (k, b) :: rest, a => if k = a then b else Memory.read rest a

/-- Byte `a` set to `v`, in the canonical form: in its place by index, not listed when `v` is 0. -/
def Memory.write : Memory → Nat → Byte → Memory
  | [], a, v => if v = 0 then [] else [(a, v)]
  | (k, b) :: rest, a, v =>
    if a < k then (if v = 0 then (k, b) :: rest else (a, v) :: (k, b) :: rest)
    else if a = k then (if v = 0 then rest else (a, v) :: rest)
    else (k, b) :: Memory.write rest a v

/-- The buffer that holds the bytes `l` from index `a` on and 0 everywhere else. -/
def Memory.ofBytesFrom : Nat → List Byte → Memory
  | _, [] => []
  | a, b :: rest => if b = 0 then Memory.ofBytesFrom (a + 1) rest else (a, b) :: Memory.ofBytesFrom (a + 1) rest

/-- The buffer whose bytes are `l` from index 0 on and 0 past its end. -/
def Memory.ofBytes (l : List Byte) : Memory := Memory.ofBytesFrom 0 l

/-- Every listed index is at least `lo`, the indexes strictly rise, and no byte 0 is listed. -/
def Memory.wfFrom : Nat → Memory → Bool
  | _, [] => true
  | lo, (k, b) :: rest => decide (lo ≤ k) && decide (b ≠ 0) && Memory.wfFrom (k + 1) rest

/-- The canonical form of a buffer. -/
def Memory.wf (m : Memory) : Bool := Memory.wfFrom 0 m

/-- Every listed index is below `n`: the buffer holds nothing outside its storage (R34, R38). -/
def Memory.below (n : Nat) (m : Memory) : Bool := m.all fun c => decide (c.1 < n)

/-! ### Sizes and buffer bytes -/

/-- KEY_MAX = floor(5 * SECRET_MAX / 8) (R5). -/
def keyMax (p : Params) : Nat := 5 * p.secretMax / 8

/-- `SECRET[i]`: bytes from SECRET_MAX on do not exist and read 0 (R34). -/
def State.secretByte (s : State) (i : Nat) : Byte :=
  if i < s.params.secretMax then s.secret.read i else 0

/-- `KEY[i]`: bytes from KEY_MAX on always read 0 (R38). -/
def State.keyByte (s : State) (i : Nat) : Byte :=
  if i < keyMax s.params then s.key.read i else 0

/-- `SECRET[i] <- v`; a write to a byte that does not exist is ignored (R34). -/
def State.setSecretByte (i : Nat) (v : Byte) (s : State) : State :=
  if i < s.params.secretMax then { s with secret := s.secret.write i v } else s

/-- A write of the SECRET word at byte index `j`: the four byte lanes, lowest first (R34, R63). -/
def State.setSecretWord (j : Nat) (v : Word) (s : State) : State :=
  (((s.setSecretByte j (byteOf v 0)).setSecretByte (j + 1) (byteOf v 1)).setSecretByte (j + 2) (byteOf v 2)).setSecretByte
    (j + 3) (byteOf v 3)

/-- `reg[SECRET_LEN] <- v[15:0]` (R33, R63). -/
def State.setSecretLen (v : Word) (s : State) : State := { s with secretLen := v.setWidth 16 }

/-- `reg[TSLICE] <- v` (R35, R63). -/
def State.setTslice (v : Word) (s : State) : State := { s with tslice := v }

/-! ### Command sequencing -/

/-- `reg[CTRL].IE <- b`, on every CTRL write (R82, R107). -/
def State.setIe (b : Bool) (s : State) : State := { s with ie := b }

/-- The block discards a host write: DROPPED <- 1 and nothing else (R106). -/
def State.drop (s : State) : State := { s with dropped := true }

/-- A write the block takes only while IDLE (R63, R106). -/
def State.unlessBusy (f : State → State) (s : State) : State :=
  match s.phase with
  | .idle => f s
  | .busy => s.drop

/-- The OP value of a command that runs (R81). -/
def Op.code : Op → BitVec 4
  | .decode => 0x1
  | .generate => 0x2

/-- `SECRET[0 .. min(SECRET_LEN, SECRET_MAX))` (R102). -/
def State.secretBytes (s : State) : List Byte :=
  (List.range (min s.secretLen.toNat s.params.secretMax)).map s.secretByte

/-- The snapshot of Start(op) (R102). time_s is sampled only by a GENERATE whose TSLICE is 0; otherwise snap.time keeps its value. -/
def State.takeSnap (op : Op) (s : State) : Snap where
  len := s.secretLen
  secret := s.secretBytes
  tslice := s.tslice
  time := if op = .generate ∧ s.tslice = 0 then s.timeS else s.snap.time

/-- Start(op) (R102). DROPPED is not cleared. -/
def State.start (op : Op) (s : State) : State :=
  { s with
    done := false
    errcode := 0
    lastop := op.code
    curOp := op
    snap := s.takeSnap op
    phase := .busy }

/-! ### Reporting an outcome, and its acknowledgement -/

/-- The one way a command's outcome is reported, success (code 0) or error: ERRCODE, DONE = 1, the phase IDLE (R103, R252).
A reserved OP is rejected the same way, its phase being IDLE already (R105). cur_op and snap keep their values; the spec leaves
them open while IDLE (R43, 93 U4), so that is the model's choice (log entry 18, DESIGN CHOICE). -/
def State.report (code : BitVec 4) (s : State) : State :=
  { s with errcode := code, done := true, phase := .idle }

/-- A STATUS write: `wdata[1]` clears DONE, `wdata[2]` clears DROPPED, nothing else changes (R27). It is how the host returns
from a completion or an error (R253). -/
def State.acknowledge (w : Word) (s : State) : State :=
  { s with done := s.done && !w.getLsbD 1, dropped := s.dropped && !w.getLsbD 2 }

/-! ### The cycle -/

/-- The start of a clock cycle: time_s takes its level, the bus outputs of the cycle before are gone, the schedule moves on. -/
def State.beginCycle (c : ClockCycle) (rest : List ClockCycle) (s : State) : State :=
  { s with timeS := c.timeS, busRdata := none, busErr := false, inputs := rest }

/-- The bus answers a read (R62). -/
def State.answer (v : Word) (s : State) : State := { s with busRdata := some v }

/-- bus_err = 1 (R64). -/
def State.busError (s : State) : State := { s with busErr := true }

/-- The bus answers a read with a fresh free value (R108). -/
def State.answerFree (s : State) : State :=
  { s with busRdata := some (Config.freeWord s.draws), draws := s.draws + 1 }

/-- Reset: every register, buffer and internal state at its reset value (R270, R47). What is not the block's own stays: the
parameters, the port time_s, the bus outputs of the cycle, the schedule and the count of free values (log entry 15). -/
def State.resetBlock (s : State) : State :=
  { State.reset with
    params := s.params
    timeS := s.timeS
    busRdata := s.busRdata
    busErr := s.busErr
    inputs := s.inputs
    draws := s.draws }

/-- `f` applied where there is a next state. -/
def onNext (o : Host.Outcome State Fault Refusal) (f : State → State) : Host.Outcome State Fault Refusal :=
  match o with
  | .next s => .next (f s)
  | .fault r => .fault r
  | .refused r => .refused r

end Sys2Proof.Machine
end

