-- ==== Sys2Proof/Machine/Flags.lean ====
section
/-! DEFINITION. The STATUS bits as a word, the error codes and the interrupt pin (R27 to R32, R45, R240, R251). -/

namespace Sys2Proof.Machine

open Sys2Proof

/-- The code of an error (R240). -/
def Err.code : Err → BitVec 4
  | .emptySecret => 1
  | .invalidPaddingCount => 2
  | .invalidPaddingPlacement => 3
  | .invalidCharacter => 4
  | .illegalCommand => 8
  | .secretTooLong => 9

/-- The codes R240 says are written: 0 and those of its named errors. -/
def errcodeDefined (c : BitVec 4) : Bool :=
  c == 0 || c == 1 || c == 2 || c == 3 || c == 4 || c == 8 || c == 9

/-- STATUS.BUSY: 1 exactly when the phase is BUSY (R28). -/
def State.busy (s : State) : Bool :=
  match s.phase with
  | .idle => false
  | .busy => true

/-- A Bool as the bit it is. -/
def bit (b : Bool) : Nat := if b then 1 else 0

/-- STATUS as it is read: BUSY [0], DONE [1], DROPPED [2], ERRCODE [7:4], LASTOP [11:8], the rest 0 (R27). -/
def State.statusWord (s : State) : Word :=
  BitVec.ofNat 32
    (bit s.busy + bit s.done * 2 ^ 1 + bit s.dropped * 2 ^ 2 + s.errcode.toNat * 2 ^ 4 + s.lastop.toNat * 2 ^ 8)

/-- CTRL as it is read: `zext_32(IE) << 8` (R26). -/
def State.ctrlWord (s : State) : Word := BitVec.ofNat 32 (bit s.ie * 2 ^ 8)

/-- The irq pin: `CTRL.IE & STATUS.DONE` (R45, R251). -/
def State.irq (s : State) : Bool := s.ie && s.done

end Sys2Proof.Machine
end

