-- ==== Sys2Proof/Machine/Command.lean ====
section
/-! DEFINITION. The meanings of the commands: what a CTRL write with each OP does (40_command_interface R100 to R102, R105). -/

namespace Sys2Proof.Machine

open Sys2Proof

/-- A CTRL write with OP ≠ 0: IE is stored in either phase; `f` is what the command does when IDLE; while BUSY it is dropped
(R100, R106, R107). -/
def issue (ie : Bool) (f : State → State) (s : State) : State := (s.setIe ie).unlessBusy f

/-- NOP: `reg[CTRL].IE <- w[8]` and nothing else, in either phase (R101). -/
def execNop (ie : Bool) (s : State) : Host.Outcome State Fault Refusal := .next (s.setIe ie)

/-- DECODE: Start(1) when IDLE, dropped while BUSY (R132, R100, R102). Its completion is `State.completeDecode`. -/
def execDecode (ie : Bool) (s : State) : Host.Outcome State Fault Refusal := .next (issue ie (State.start .decode) s)

/-- GENERATE: Start(2) when IDLE, dropped while BUSY (R156, R100, R102). Its completion is `State.completeGenerate`. -/
def execGenerate (ie : Bool) (s : State) : Host.Outcome State Fault Refusal := .next (issue ie (State.start .generate) s)

/-- `RejectReserved(op)`, for OP 0x3 to 0xF, when IDLE: IllegalCommand at once; dropped while BUSY (R85, R100, R105, R106). -/
def rejectReserved (op : BitVec 4) (ie : Bool) (s : State) : State :=
  issue ie (fun t => State.report Err.illegalCommand.code { t with lastop := op }) s

end Sys2Proof.Machine
end

