-- ==== Sys2Proof/Machine/Dispatch.lean ====
section
/-! DEFINITION. exec: one arm per command. -/

namespace Sys2Proof.Machine

open Sys2Proof

def exec (i : Instr) (s : State) : Host.Outcome State Fault Refusal :=
  match i with
  | .nop ie => Sys2Proof.Machine.execNop ie s
  | .decode ie => Sys2Proof.Machine.execDecode ie s
  | .generate ie => Sys2Proof.Machine.execGenerate ie s

end Sys2Proof.Machine
end

