-- ==== Sys2Proof/Machine/Base32.lean ====
section
/-! DEFINITION. The base32 decoder with its padding validator (41_base32_decoder R120 to R131). -/

namespace Sys2Proof.Machine

open Sys2Proof

/-- The padding symbol '=' (R7, R120). -/
def padByte : Byte := 0x3D

/-- `B32Index` (R120): 'A' to 'Z' are 0 to 25, '2' to '7' are 26 to 31, every other byte has no index. -/
def b32Index (c : Byte) : Option Nat :=
  if 0x41 ≤ c.toNat ∧ c.toNat ≤ 0x5A then some (c.toNat - 0x41)
  else if 0x32 ≤ c.toNat ∧ c.toNat ≤ 0x37 then some (c.toNat - 0x32 + 26)
  else none

/-- The length of the longest run of '=' that ends at the last byte (R123). -/
def trailingPads (s : List Byte) : Nat := (s.reverse.takeWhile fun c => c == padByte).length

/-- PAD_COUNTS (R5, R123). -/
def padCounts : List Nat := [0, 1, 3, 4, 6]

/-- `acc` with the 5-bit indexes of `ch` appended, the first character's most significant (R127). `acc * 32 + v` is
`(acc << 5) | v`, since v < 32. -/
def gather : Nat → List Byte → Except Err Nat
  | acc, [] => .ok acc
  | acc, c :: cs =>
    match b32Index c with
    | none => .error .invalidCharacter
    | some v => gather (acc * 32 + v) cs

/-- The whole bytes of a bit string of `5 * k` bits, left to right, the trailing bits dropped (R128). -/
def wholeBytes (k acc : Nat) : List Byte :=
  (List.range (5 * k / 8)).map fun m =>
    BitVec.ofNat 8 ((acc >>> (5 * k - 8 * (5 * k / 8))) >>> (8 * (5 * k / 8 - 1 - m)))

/-- One chunk of 1 to 8 data characters (R127, R128). -/
def decodeChunk (ch : List Byte) : Except Err (List Byte) :=
  match gather 0 ch with
  | .error e => .error e
  | .ok acc => .ok (wholeBytes ch.length acc)

/-- The first `n` chunks of 8 data characters, in order (R127). -/
def decodeChunks : Nat → List Byte → Except Err (List Byte)
  | 0, _ => .ok []
  | n + 1, d =>
    match decodeChunk (d.take 8) with
    | .error e => .error e
    | .ok b =>
      match decodeChunks n (d.drop 8) with
      | .error e => .error e
      | .ok bs => .ok (b ++ bs)

/-- `Decode(s)` (R121): the checks in the document's order, the first that fails giving the error, then the repacking. -/
def base32Decode (s : List Byte) : Except Err (List Byte) :=
  if s.length = 0 then .error .emptySecret
  else if trailingPads s ∉ padCounts then .error .invalidPaddingCount
  else if padByte ∈ s.take (s.length - trailingPads s) then .error .invalidPaddingPlacement
  else decodeChunks ((s.length - trailingPads s + 7) / 8) (s.take (s.length - trailingPads s))

/-- The decoding step of a command (R133, R157): the length check comes before every decoding check (R246, R248). -/
def decodeSnap (p : Params) (n : Snap) : Except Err (List Byte) :=
  if n.len.toNat > p.secretMax then .error .secretTooLong
  else base32Decode n.secret

end Sys2Proof.Machine
end

