-- ==== Sys2Proof/Machine/Sha1.lean ====
section
/-! DEFINITION. SHA-1 and HMAC-SHA1 (43_hmac_sha1 R180 to R193). -/

namespace Sys2Proof.Machine

open Sys2Proof

/-- Five 32-bit words: the hash value H0 to H4 (R180), or the working variables a to e (R185). -/
structure Hash where
  h0 : Word
  h1 : Word
  h2 : Word
  h3 : Word
  h4 : Word
deriving DecidableEq, Repr

/-- The initial hash value (R181). -/
def sha1Init : Hash :=
  { h0 := 0x67452301, h1 := 0xEFCDAB89, h2 := 0x98BADCFE, h3 := 0x10325476, h4 := 0xC3D2E1F0 }

/-- `z`, the least n with (len + 1 + n + 8) mod 64 = 0 (R182). -/
def padZeros (len : Nat) : Nat := (119 - len % 64) % 64

/-- `Pad(M)` (R182). -/
def sha1Pad (m : List Byte) : List Byte :=
  m ++ [0x80] ++ zeros (padZeros m.length) ++ beBytes64 (BitVec.ofNat 64 (8 * m.length))

/-- `f_t(x, y, z)` (R184). -/
def sha1F (t : Nat) (x y z : Word) : Word :=
  if t < 20 then (x &&& y) ^^^ (~~~x &&& z)
  else if t < 40 then x ^^^ y ^^^ z
  else if t < 60 then (x &&& y) ^^^ (x &&& z) ^^^ (y &&& z)
  else x ^^^ y ^^^ z

/-- `K_t` (R184). -/
def sha1K (t : Nat) : Word :=
  if t < 20 then 0x5A827999
  else if t < 40 then 0x6ED9EBA1
  else if t < 60 then 0x8F1BBCDC
  else 0xCA62C1D6

/-- W[0] to W[15] of a block (R183). -/
def blockWords (x : List Byte) : List Word :=
  (List.range 16).map fun t => be32 (byteAt x (4 * t)) (byteAt x (4 * t + 1)) (byteAt x (4 * t + 2)) (byteAt x (4 * t + 3))

/-- `n` more schedule words, on a schedule held newest first: W[t] from W[t-3], W[t-8], W[t-14] and W[t-16] (R183). -/
def extendSchedule : Nat → List Word → List Word
  | 0, w => w
  | n + 1, w => extendSchedule n (rotl 1 (w.getD 2 0 ^^^ w.getD 7 0 ^^^ w.getD 13 0 ^^^ w.getD 15 0) :: w)

/-- W[0] to W[79] of a block, in order (R183). -/
def schedule (x : List Byte) : List Word := (extendSchedule 64 (blockWords x).reverse).reverse

/-- Round t of the compression (R185). -/
def sha1Round (t : Nat) (w : Word) (v : Hash) : Hash where
  h0 := rotl 5 v.h0 + sha1F t v.h1 v.h2 v.h3 + v.h4 + sha1K t + w
  h1 := v.h0
  h2 := rotl 30 v.h1
  h3 := v.h2
  h4 := v.h3

/-- The rounds from t on, one per schedule word (R185). -/
def sha1Rounds : Nat → List Word → Hash → Hash
  | _, [], v => v
  | t, w :: ws, v => sha1Rounds (t + 1) ws (sha1Round t w v)

/-- The sum of two hash values, word by word mod 2^32 (R185). -/
def Hash.add (x y : Hash) : Hash where
  h0 := x.h0 + y.h0
  h1 := x.h1 + y.h1
  h2 := x.h2 + y.h2
  h3 := x.h3 + y.h3
  h4 := x.h4 + y.h4

/-- `Compress(H, X)` (R185). -/
def compress (h : Hash) (x : List Byte) : Hash := h.add (sha1Rounds 0 (schedule x) h)

/-- The first `n` 64-byte blocks of a padded message, in order (R180). -/
def sha1Blocks : Nat → List Byte → List (List Byte)
  | 0, _ => []
  | n + 1, p => p.take 64 :: sha1Blocks n (p.drop 64)

/-- `Digest(H)` (R186). -/
def Hash.digest (h : Hash) : List Byte :=
  beBytes32 h.h0 ++ beBytes32 h.h1 ++ beBytes32 h.h2 ++ beBytes32 h.h3 ++ beBytes32 h.h4

/-- SHA1(M) as five words: the compression chained over the blocks of the padded message (R180). -/
def sha1Hash (m : List Byte) : Hash := (sha1Blocks ((sha1Pad m).length / 64) (sha1Pad m)).foldl compress sha1Init

/-- `SHA1(M)`: 20 bytes (R180, R186). -/
def sha1 (m : List Byte) : List Byte := (sha1Hash m).digest

/-- `K0`: a key of more than 64 bytes is hashed first; then zeros up to 64 bytes (R187, R188). -/
def keyPrep (k : List Byte) : List Byte :=
  if k.length > 64 then sha1 k ++ zeros 44
  else k ++ zeros (64 - k.length)

/-- The bytewise exclusive or of a sequence with a pad of one repeated byte (R189). -/
def xorPad (x : Byte) (k0 : List Byte) : List Byte := k0.map fun b => b ^^^ x

/-- `HMAC_SHA1(K, M)`: 20 bytes (R190), ipad 0x36 and opad 0x5C (R189). -/
def hmacSha1 (k m : List Byte) : List Byte :=
  sha1 (xorPad 0x5C (keyPrep k) ++ sha1 (xorPad 0x36 (keyPrep k) ++ m))

end Sys2Proof.Machine
end

