-- ==== Sys2Proof/Machine/Truncate.lean ====
section
/-! DEFINITION. Dynamic truncation, the modulo and the decimal digits (44_truncation_modulo R220 to R225). -/

namespace Sys2Proof.Machine

open Sys2Proof

/-- The offset: the low nibble of mac[19] (R220). -/
def macOffset (mac : List Byte) : Nat := (byteAt mac 19 &&& 0x0F).toNat

/-- `Truncate(mac)`: four bytes from the offset on, big-endian, bit 31 dropped (R221). -/
def truncate (mac : List Byte) : BitVec 31 :=
  (be32 (byteAt mac (macOffset mac)) (byteAt mac (macOffset mac + 1)) (byteAt mac (macOffset mac + 2))
      (byteAt mac (macOffset mac + 3)) &&& 0x7FFFFFFF).setWidth 31

/-- `code = v mod 1000000` (R222). -/
def codeOf (v : BitVec 31) : BitVec 20 := BitVec.ofNat 20 (v.toNat % 1000000)

/-- `Format6(code)`: six ASCII digits, the most significant first (R223). -/
def format6 (code : Nat) : List Byte :=
  (List.range 6).map fun i => BitVec.ofNat 8 (0x30 + code / 10 ^ (5 - i) % 10)

/-- CODE_STR0 of six digits (R224). -/
def strWord0 (d : List Byte) : Word := le32 (byteAt d 0) (byteAt d 1) (byteAt d 2) (byteAt d 3)

/-- CODE_STR1[15:0] of six digits; its upper half is 0 (R224). -/
def strWord1 (d : List Byte) : BitVec 16 := (le32 (byteAt d 4) (byteAt d 5) 0 0).setWidth 16

end Sys2Proof.Machine
end

