-- ==== Sys2Proof/Machine/Generator.lean ====
section
/-! DEFINITION. The code generator: time slice, counter and the whole pipeline (42_code_generator R150 to R155). -/

namespace Sys2Proof.Machine

open Sys2Proof

/-- `SliceOf(t)` = (t div 30) mod 2^32 (R151). -/
def sliceOf (t : Seconds) : Word := BitVec.ofNat 32 (t.toNat / 30)

/-- `ResolveSlice(snap)`: TSLICE, or the live slice when it is the sentinel 0 (R150, R152). -/
def resolveSlice (n : Snap) : Word := if n.tslice ≠ 0 then n.tslice else sliceOf n.time

/-- `Counter(ts)`: 8 bytes, big-endian, the high four zero (R153). -/
def counterBytes (ts : Word) : List Byte := zeros 4 ++ beBytes32 ts

/-- The GENERATE result registers for a slice and a mac (R154 steps 5 to 7, R157). -/
def genRegsOf (ts : Word) (mac : List Byte) : GenRegs where
  tsUsed := ts
  trunc := truncate mac
  code := codeOf (truncate mac)
  codeStr0 := strWord0 (format6 (codeOf (truncate mac)).toNat)
  codeStr1 := strWord1 (format6 (codeOf (truncate mac)).toNat)
  mac0 := be32 (byteAt mac 0) (byteAt mac 1) (byteAt mac 2) (byteAt mac 3)
  mac1 := be32 (byteAt mac 4) (byteAt mac 5) (byteAt mac 6) (byteAt mac 7)
  mac2 := be32 (byteAt mac 8) (byteAt mac 9) (byteAt mac 10) (byteAt mac 11)
  mac3 := be32 (byteAt mac 12) (byteAt mac 13) (byteAt mac 14) (byteAt mac 15)
  mac4 := be32 (byteAt mac 16) (byteAt mac 17) (byteAt mac 18) (byteAt mac 19)

/-- `Generate(snap)` after the length check: the result registers, or the decoder's error unchanged (R154, R155, R157). -/
def generateSnap (p : Params) (n : Snap) : Except Err GenRegs :=
  match decodeSnap p n with
  | .error e => .error e
  | .ok key => .ok (genRegsOf (resolveSlice n) (hmacSha1 key (counterBytes (resolveSlice n))))

end Sys2Proof.Machine
end

