-- ==== Sys2Proof/Machine/Engine.lean ====
section
/-! DEFINITION. The engine's own move: the completion of a running command (R103, R133, R157 to R159). -/

namespace Sys2Proof.Machine

open Sys2Proof

/-- `DecodeCmd(snap)` and the STATUS writes of its completion (R103, R133). -/
def State.completeDecode (s : State) : State :=
  match decodeSnap s.params s.snap with
  | .ok k =>
    State.report 0 { s with keyLen := BitVec.ofNat 16 k.length, key := Memory.ofBytes (k.take (keyMax s.params)) }
  | .error e => State.report e.code { s with keyLen := 0, key := [] }

/-- GENERATE's decoded key put in ikey (R44). A key that fits the block fits ikey (R129). -/
def State.loadIkey (s : State) : State :=
  match decodeSnap s.params s.snap with
  | .ok k => { s with ikey := Memory.ofBytes (k.take (keyMax s.params)) }
  | .error _ => s

/-- ikey set to all zeros (R44, R157, R159). -/
def State.zeroIkey (s : State) : State := { s with ikey := [] }

/-- `GenerateCmd(snap)` and the STATUS writes of its completion (R103, R157, R158). Decoding is a step of the completion (R103,
R154), and the block's state changes only at events (R11), so ikey is loaded and zeroed in this one atomic step: no state between
steps shows a key (log entry 8, DEDUCED). -/
def State.completeGenerate (s : State) : State :=
  match generateSnap s.params s.snap with
  | .ok g => State.report 0 (State.zeroIkey { s.loadIkey with gen := g })
  | .error e => State.report e.code (State.zeroIkey { s.loadIkey with gen := GenRegs.zero })

/-- `Complete()` (R103). cur_op and snap keep the finished command's values; the spec leaves them open while IDLE (R43, 93 U4),
so that is the model's choice (log entry 18, DESIGN CHOICE). -/
def State.complete (s : State) : State :=
  match s.curOp with
  | .decode => s.completeDecode
  | .generate => s.completeGenerate

/-- What the engine does in a cycle that began with the phase `before` (R11, R104): a command that was running completes if it
finishes in this cycle, and otherwise nothing changes; one started in this very cycle does not complete, since LATENCY is at
least 1. -/
def State.engine (before : Phase) (finish : Bool) (s : State) : State :=
  match before with
  | .idle => s
  | .busy => if finish then s.complete else s

end Sys2Proof.Machine
end

