-- ==== Sys2Proof/Machine/Operands.lean ====
section
/-! DEFINITION. The places an access can name: the register map of the 1 KiB window (R23) and what each place reads as. -/

namespace Sys2Proof.Machine

open Sys2Proof

/-- A place in the window (R23). A window word is named by the buffer index of its first byte. -/
inductive Loc where
  | id
  | param
  | ctrl
  | status
  | secretLen
  | tslice
  | tsUsed
  | keyLen
  | trunc
  | code
  | codeStr0
  | codeStr1
  | mac0
  | mac1
  | mac2
  | mac3
  | mac4
  | secretWord (j : Nat)
  | keyWord (j : Nat)
  | reserved
deriving DecidableEq, Repr

/-- The register rows of R23. -/
def registerMap : List (Nat × Loc) :=
  [(0x000, .id), (0x004, .param), (0x008, .ctrl), (0x00C, .status), (0x010, .secretLen), (0x014, .tslice),
   (0x018, .tsUsed), (0x01C, .keyLen), (0x020, .trunc), (0x024, .code), (0x028, .codeStr0), (0x02C, .codeStr1),
   (0x030, .mac0), (0x034, .mac1), (0x038, .mac2), (0x03C, .mac3), (0x040, .mac4)]

/-- The place at an aligned offset: a register, a word of the SECRET or the KEY window, or reserved (R23, R61, R71). -/
def locate (off : BitVec 10) : Loc :=
  match registerMap.lookup off.toNat with
  | some l => l
  | none =>
    if 0x100 ≤ off.toNat ∧ off.toNat ≤ 0x1FC then .secretWord (off.toNat - 0x100)
    else if 0x200 ≤ off.toNat ∧ off.toNat ≤ 0x2FC then .keyWord (off.toNat - 0x200)
    else .reserved

/-- Whether a place reads an unspecified value while BUSY (R108). -/
def Loc.isResult : Loc → Bool
  | .tsUsed => true
  | .keyLen => true
  | .trunc => true
  | .code => true
  | .codeStr0 => true
  | .codeStr1 => true
  | .mac0 => true
  | .mac1 => true
  | .mac2 => true
  | .mac3 => true
  | .mac4 => true
  | .keyWord _ => true
  | .id => false
  | .param => false
  | .ctrl => false
  | .status => false
  | .secretLen => false
  | .tslice => false
  | .secretWord _ => false
  | .reserved => false

/-- ID: "AUTH" as a big-endian number (R24). -/
def idWord : Word := 0x41555448

/-- PARAM: SECRET_MAX [8:0], KEY_MAX [23:16], DIGITS = 6 [27:24], the rest 0 (R25). -/
def paramWord (p : Params) : Word :=
  BitVec.ofNat 32 (p.secretMax % 2 ^ 9 + (keyMax p % 2 ^ 8) * 2 ^ 16 + 6 * 2 ^ 24)

/-- `ReadWord`: the value a place holds (R62). Reserved bits read 0 (R71). -/
def State.readLoc (s : State) : Loc → Word
  | .id => idWord
  | .param => paramWord s.params
  | .ctrl => s.ctrlWord
  | .status => s.statusWord
  | .secretLen => s.secretLen.setWidth 32
  | .tslice => s.tslice
  | .tsUsed => s.gen.tsUsed
  | .keyLen => s.keyLen.setWidth 32
  | .trunc => s.gen.trunc.setWidth 32
  | .code => s.gen.code.setWidth 32
  | .codeStr0 => s.gen.codeStr0
  | .codeStr1 => s.gen.codeStr1.setWidth 32
  | .mac0 => s.gen.mac0
  | .mac1 => s.gen.mac1
  | .mac2 => s.gen.mac2
  | .mac3 => s.gen.mac3
  | .mac4 => s.gen.mac4
  | .secretWord j => le32 (s.secretByte j) (s.secretByte (j + 1)) (s.secretByte (j + 2)) (s.secretByte (j + 3))
  | .keyWord j => le32 (s.keyByte j) (s.keyByte (j + 1)) (s.keyByte (j + 2)) (s.keyByte (j + 3))
  | .reserved => 0

end Sys2Proof.Machine
end

