-- ==== Sys2Proof/Machine/Bus.lean ====
section
/-! DEFINITION. Bus accesses (20_memory R62 to R64) and one clock cycle of the block (00_scope R11; 70_reset_and_hazards R270). -/

namespace Sys2Proof.Machine

open Sys2Proof

/-- A write to CTRL (R100): the word is decoded and its command runs; a reserved OP is rejected (R105). -/
def ctrlWrite (w : Word) (s : State) : Host.Outcome State Fault Refusal :=
  match decodeWord w with
  | .ok i => exec i s
  | .error (.reservedOp op ie) => .next (rejectReserved op ie s)

/-- The write of `v` to a place other than CTRL (R63): STATUS in either phase, the inputs only while IDLE, every other place
ignored. A CTRL write is `ctrlWrite`. -/
def plainWrite (l : Loc) (v : Word) (s : State) : State :=
  match l with
  | .status => s.acknowledge v
  | .secretLen => s.unlessBusy (State.setSecretLen v)
  | .tslice => s.unlessBusy (State.setTslice v)
  | .secretWord j => s.unlessBusy (State.setSecretWord j v)
  | .ctrl => s
  | .id => s
  | .param => s
  | .tsUsed => s
  | .keyLen => s
  | .trunc => s
  | .code => s
  | .codeStr0 => s
  | .codeStr1 => s
  | .mac0 => s
  | .mac1 => s
  | .mac2 => s
  | .mac3 => s
  | .mac4 => s
  | .keyWord _ => s
  | .reserved => s

/-- `MemWrite(off, 4, v)` (R63). A misaligned write, `off[1:0] ≠ 0`, is rejected before its offset is looked at (R64, R250). -/
def memWrite (off : BitVec 10) (v : Word) (s : State) : Host.Outcome State Fault Refusal :=
  if off.toNat % 4 ≠ 0 then .next s.busError
  else if locate off = .ctrl then ctrlWrite v s
  else .next (plainWrite (locate off) v s)

/-- `MemRead(off, 4)` (R62). A misaligned read answers 0 with an error (R64); a result register or KEY word read while BUSY
answers a free value (R108). -/
def memRead (off : BitVec 10) (s : State) : State :=
  if off.toNat % 4 ≠ 0 then (s.answer 0).busError
  else if s.busy && (locate off).isResult then s.answerFree
  else s.answer (s.readLoc (locate off))

/-- The bus access of a cycle, if one is presented (R22). -/
def access (c : ClockCycle) (s : State) : Host.Outcome State Fault Refusal :=
  if c.sel then
    if c.write then memWrite c.addr c.wdata s else .next (memRead c.addr s)
  else .next s

/-- A cycle with rst_n = 0 (R270): the block is reset; a read returns 0, a write has no effect, there is no bus error. -/
def resetCycle (c : ClockCycle) (s : State) : State :=
  if c.sel && !c.write then s.resetBlock.answer 0 else s.resetBlock

/-- One clock cycle: reset overrides all (R270); otherwise the access, then the engine (R11). -/
def runCycle (c : ClockCycle) (rest : List ClockCycle) (s : State) : Host.Outcome State Fault Refusal :=
  if c.rstN then onNext (access c (s.beginCycle c rest)) (State.engine s.phase c.finish)
  else .next (resetCycle c (s.beginCycle c rest))

/-- What a step runs when nothing is scheduled: the quiet cycles up to the completion of a running command, seen as one; no
access, no reset (log entry 2). -/
def quietCycle (s : State) : ClockCycle where
  rstN := true
  sel := false
  write := false
  addr := 0
  wdata := 0
  timeS := s.timeS
  finish := true

/-- The cycle in which a host write of `v` at `off` is presented, the engine not finishing in it. -/
def writeCycle (off : BitVec 10) (v : Word) (t : Seconds) : ClockCycle where
  rstN := true
  sel := true
  write := true
  addr := off
  wdata := v
  timeS := t
  finish := false

/-- The cycle in which a host read at `off` is presented, the engine not finishing in it. -/
def readCycle (off : BitVec 10) (t : Seconds) : ClockCycle where
  rstN := true
  sel := true
  write := false
  addr := off
  wdata := 0
  timeS := t
  finish := false

/-- An access at a platform address reaches the block when the address lies in its 1 KiB window, at bus_addr[9:0] (R60). -/
def atPlatform (p : Params) (address : Nat) (c : ClockCycle) : ClockCycle :=
  { c with sel := c.sel && decide (address / 1024 = p.blockPage), addr := BitVec.ofNat 10 address }

/-- The schedule with a write of a command word to CTRL (offset 0x008, R80) put before everything else. -/
def withCommand (w : Word) (s : State) : State :=
  { s with inputs := writeCycle 0x008 w s.timeS :: s.inputs }

end Sys2Proof.Machine
end

