-- ==== Sys2Proof/Machine/Step.lean ====
section
/-! DEFINITION. One step of the block: the next scheduled clock cycle, or quiet cycles when none is scheduled (00_scope R11). -/

namespace Sys2Proof.Machine

open Sys2Proof

/-- One step. -/
def step (s : State) : Host.Outcome State Fault Refusal :=
  match s.inputs with
  | [] => runCycle (quietCycle s) [] s
  | c :: rest => runCycle c rest s

/-- `s` with the host's write of the command word to CTRL presented in the very next cycle (log entry 12). -/
def State.withFetchWord (s : State) (nbits w : Nat) : State := withCommand (tableWord nbits w) s

end Sys2Proof.Machine
end

