-- ==== Sys2Proof/Safety.lean ====
section
/-! DEFINITION. The terms claims are stated in: the legal states of the block, when a cycle holds what kind of access, and
reference definitions that do not share the decoder's arithmetic (the alphabet as a list, bit strings, the standard encoder). -/

namespace Sys2Proof.Safety

open Sys2Proof Sys2Proof.Machine

/-! ### Legal states -/

/-- The three buffers are in the model's canonical form (log entry 13) and list nothing outside their storage (R34, R38, R44). -/
structure BuffersOk (s : State) : Prop where
  secretWf : s.secret.wf = true
  keyWf : s.key.wf = true
  ikeyWf : s.ikey.wf = true
  secretIn : s.secret.below s.params.secretMax = true
  keyIn : s.key.below (keyMax s.params) = true
  ikeyIn : s.ikey.below (keyMax s.params) = true

/-- What STATUS can read as: while BUSY, DONE = 0, ERRCODE = 0 and LASTOP names the running command (R31, R32, R102); ERRCODE
is a code of R240's table that is written; it is IllegalCommand exactly when LASTOP is a reserved OP (R105). -/
structure StatusOk (s : State) : Prop where
  busyNotDone : s.phase = .busy → s.done = false
  busyNoError : s.phase = .busy → s.errcode = 0
  busyNamesOp : s.phase = .busy → s.lastop = s.curOp.code
  codeDefined : errcodeDefined s.errcode = true
  illegalIffReserved : s.errcode = 8 ↔ 3 ≤ s.lastop.toNat

/-- While BUSY the snapshot equals the live inputs (R43, R74). -/
structure SnapLive (s : State) : Prop where
  len : s.phase = .busy → s.snap.len = s.secretLen
  secret : s.phase = .busy → s.snap.secret = s.secretBytes
  tslice : s.phase = .busy → s.snap.tslice = s.tslice

/-- KEY_LEN is at most KEY_MAX and every KEY byte from KEY_LEN on is 0 (R37, R38). -/
structure KeyOk (s : State) : Prop where
  lenBound : s.keyLen.toNat ≤ keyMax s.params
  zeroPast : ∀ i, s.keyLen.toNat ≤ i → s.key.read i = 0

/-- The 20 bytes the MAC registers hold (R42). -/
def macBytes (g : GenRegs) : List Byte :=
  beBytes32 g.mac0 ++ beBytes32 g.mac1 ++ beBytes32 g.mac2 ++ beBytes32 g.mac3 ++ beBytes32 g.mac4

/-- The GENERATE result registers belong together: all 0 (reset or a failed GENERATE, R47, R158), or TRUNC, CODE and CODE_STR
are those the MAC registers give (R157, R224). -/
def GenOk (g : GenRegs) : Prop := g = GenRegs.zero ∨ g = genRegsOf g.tsUsed (macBytes g)

/-- The legal states: every state a run from reset reaches is one. -/
structure LegalState (s : State) : Prop where
  params : s.params.Legal
  buffers : BuffersOk s
  status : StatusOk s
  snap : SnapLive s
  /-- No decoded key stands in ikey between steps, in either phase (R11, R44, R159; log entry 8). -/
  ikey : s.ikey = []
  key : KeyOk s
  gen : GenOk s.gen

/-! ### Kinds of cycle -/

/-- The cycle the next step runs, and the schedule after it. -/
def nextCycle (s : State) : ClockCycle × List ClockCycle :=
  match s.inputs with
  | [] => (quietCycle s, [])
  | c :: rest => (c, rest)

/-- The cycle presents a write at offset `off` and no reset. -/
def WritesAt (c : ClockCycle) (off : BitVec 10) : Prop :=
  c.rstN = true ∧ c.sel = true ∧ c.write = true ∧ c.addr = off

/-- The next step is a reset cycle. -/
def ResetNext (s : State) : Prop := (nextCycle s).1.rstN = false

/-- The next step completes a running command `op`. -/
def CompletesNext (op : Op) (s : State) : Prop :=
  (nextCycle s).1.rstN = true ∧ s.phase = .busy ∧ s.curOp = op ∧ (nextCycle s).1.finish = true

/-- The next step writes `w` to CTRL. -/
def CommandNext (w : Word) (s : State) : Prop := WritesAt (nextCycle s).1 0x008 ∧ (nextCycle s).1.wdata = w

/-- The next step writes `w` to STATUS. -/
def StatusWriteNext (w : Word) (s : State) : Prop := WritesAt (nextCycle s).1 0x00C ∧ (nextCycle s).1.wdata = w

/-- The next step completes the running command. -/
def CompletionNext (s : State) : Prop := CompletesNext .decode s ∨ CompletesNext .generate s

/-- The next step starts a command: an idle block is given OP 1 or 2 (R102). -/
def StartNext (s : State) : Prop := s.phase = .idle ∧ ∃ w : Word, CommandNext w s ∧ (w.toNat % 16 = 1 ∨ w.toNat % 16 = 2)

/-- The next step rejects a reserved OP (R105). -/
def RejectionNext (s : State) : Prop := s.phase = .idle ∧ ∃ w : Word, CommandNext w s ∧ 3 ≤ w.toNat % 16

/-- The next step discards a host write: one of R106's four kinds, while BUSY. -/
def DiscardNext (s : State) : Prop :=
  s.phase = .busy ∧
    ((∃ w : Word, CommandNext w s ∧ w.toNat % 16 ≠ 0) ∨
     ∃ off : BitVec 10, WritesAt (nextCycle s).1 off ∧
       (off = 0x010 ∨ off = 0x014 ∨ (off.toNat % 4 = 0 ∧ 0x100 ≤ off.toNat ∧ off.toNat ≤ 0x1FC)))

/-- The next step writes a 1 to bit `k` of STATUS (R27). -/
def ClearNext (k : Nat) (s : State) : Prop := ∃ w : Word, StatusWriteNext w s ∧ w.getLsbD k = true

/-! ### Reference definitions for the decoder -/

/-- The alphabet in index order (R120): 'A' to 'Z', then '2' to '7'. -/
def alphabet : List Byte :=
  [0x41, 0x42, 0x43, 0x44, 0x45, 0x46, 0x47, 0x48, 0x49, 0x4A, 0x4B, 0x4C, 0x4D, 0x4E, 0x4F, 0x50,
   0x51, 0x52, 0x53, 0x54, 0x55, 0x56, 0x57, 0x58, 0x59, 0x5A, 0x32, 0x33, 0x34, 0x35, 0x36, 0x37]

/-- The `n` low bits of a number, the most significant first. -/
def bitsOf (n v : Nat) : List Bool := (List.range n).map fun i => v.testBit (n - 1 - i)

/-- The bit string of a list of 5-bit indexes (R127). -/
def indexBits (v : List Nat) : List Bool := v.flatMap (bitsOf 5)

/-- The bit string of a list of bytes (R128). -/
def byteBits (b : List Byte) : List Bool := b.flatMap fun x => bitsOf 8 x.toNat

/-- The data characters of a secret: what is left of its trailing run of '=' (R125). -/
def dataChars (s : List Byte) : List Byte := s.take (s.length - trailingPads s)

/-- The big-endian number of a list of bytes. -/
def bytesValue (b : List Byte) : Nat := b.foldl (fun acc x => acc * 256 + x.toNat) 0

/-- Standard base32 of 1 to 5 bytes: ceil(8n/5) characters, zero bits filling the last one, then '=' up to 8 (R129, R131). -/
def base32Group (g : List Byte) : List Byte :=
  ((List.range ((8 * g.length + 4) / 5)).map fun j =>
      byteAt alphabet
        ((bytesValue g <<< (5 * ((8 * g.length + 4) / 5) - 8 * g.length)) >>> (5 * ((8 * g.length + 4) / 5 - 1 - j)) % 32))
    ++ List.replicate (8 - (8 * g.length + 4) / 5) padByte

/-- Standard base32 of the first `n` groups of 5 bytes. -/
def base32Groups : Nat → List Byte → List Byte
  | 0, _ => []
  | n + 1, b => base32Group (b.take 5) ++ base32Groups n (b.drop 5)

/-- Standard padded base32 of a byte sequence (R131). -/
def base32Encode (b : List Byte) : List Byte := base32Groups ((b.length + 4) / 5) b

/-- The number a string of ASCII digits writes. -/
def digitsValue (d : List Byte) : Nat := d.foldl (fun acc x => acc * 10 + (x.toNat - 0x30)) 0

end Sys2Proof.Safety
end

