-- ==== Sys2Proof/Certificates/Slice0/Obligations.lean ====
section
/-! DEFINITION. The statements for the provers. Each docstring names the rules it formalises and, where a clause rests on a choice
of the model, the log entry. -/

open Sys2Proof Sys2Proof.Machine Sys2Proof.Safety

/-! ### Command words (30_encoding) -/

/-- R80, R81, R83, R87: a command decodes from its own word; a word is a command's exactly when its OP and IE bits are that
command's, whatever its reserved bits; every other word is rejected with its OP and IE. -/
def Obligations.DecodingIsTotalAndIgnoresReservedBits : Prop :=
  (∀ i, decodeWord (encode i) = .ok i) ∧
  (∀ w i, decodeWord w = .ok i ↔ w &&& 0x0000010F = encode i) ∧
  (∀ w op ie, decodeWord w = .error (.reservedOp op ie) ↔
    3 ≤ w.toNat % 16 ∧ op.toNat = w.toNat % 16 ∧ ie = w.getLsbD 8)

/-- R81, R87: words written out from the encoding. -/
def Obligations.WordsOfTheEncodingDecode : Prop :=
  decodeWord 0x00000100 = .ok (.nop true) ∧
  decodeWord 0xFFFFFEF0 = .ok (.nop false) ∧
  decodeWord 0x00000001 = .ok (.decode false) ∧
  decodeWord 0x00000102 = .ok (.generate true) ∧
  decodeWord 0x0000010F = .error (.reservedOp 0xF true)

/-- R83: the reserved bits of a command word change nothing, and they read back as 0. -/
def Obligations.ReservedBitsOfACommandWordAreIgnored : Prop :=
  (∀ w s, memWrite 0x008 w s = memWrite 0x008 (w &&& 0x0000010F) s) ∧
  (∀ w s t, memWrite 0x008 w s = .next t →
    (memRead 0x008 t).busRdata = some (if w.getLsbD 8 then 0x00000100 else 0x00000000))

/-! ### Steps (00_scope R11) -/

/-- R11, R100: a cycle that presents a write of command `i`'s word to CTRL runs exec of `i` on the state at the start of the
cycle (the port levels of the cycle in place, log entry 1), and then the engine. -/
def Obligations.StepRunsTheDecodedCommand : Prop :=
  ∀ (s : State) (c : ClockCycle) (rest : List ClockCycle) (i : Instr),
    s.inputs = c :: rest → c.rstN = true → c.sel = true → c.write = true → c.addr = 0x008 → decodeWord c.wdata = .ok i →
    step s = onNext (exec i { s with timeS := c.timeS, busRdata := none, busErr := false, inputs := rest })
      (State.engine s.phase c.finish)

/-- R11, R260, R279: in a cycle that holds none of R11's three events (no access, no completion, no reset), in either phase,
every register and all internal state stay (time_s takes its level and the bus outputs of the last cycle go, log entries 4 and
11). -/
def Obligations.ABlockWithoutAnEventKeepsEveryRegister : Prop :=
  ∀ (s : State) (c : ClockCycle) (rest : List ClockCycle), (s.phase = .idle ∨ c.finish = false) → s.inputs = c :: rest →
    c.rstN = true → c.sel = false →
    step s = .next { s with timeS := c.timeS, busRdata := none, busErr := false, inputs := rest }

/-- Every step of every state answers a next state: the spec gives every access, command and event an effect (R62, R63, R103,
R105, R270). -/
def Obligations.EveryStepAnswersANextState : Prop :=
  ∀ s : State, ∃ t, step s = .next t

/-! ### NOP, the starts, the drops, the rejection (40_command_interface) -/

/-- R101: NOP stores IE and changes nothing else, in either phase; the pin follows IE at once. -/
def Obligations.NopStoresIeAndNothingElse : Prop :=
  ∀ (ie : Bool) (s : State),
    exec (.nop ie) s = .next { s with ie := ie } ∧
    (memWrite 0x008 (encode (.nop ie)) s = .next { s with ie := ie }) ∧
    State.irq { s with ie := ie } = (ie && s.done)

/-- R102, R132: an idle block takes a DECODE: exactly these fields are written. (That snap.time keeps its value is log entry 7,
DEDUCED.) -/
def Obligations.DecodeStartsWhenIdle : Prop :=
  ∀ (ie : Bool) (s : State), s.phase = .idle →
    exec (.decode ie) s = .next
      { s with
        ie := ie
        done := false
        errcode := 0
        lastop := 0x1
        curOp := .decode
        snap :=
          { len := s.secretLen
            secret := (List.range (min s.secretLen.toNat s.params.secretMax)).map s.secretByte
            tslice := s.tslice
            time := s.snap.time }
        phase := .busy }

/-- R102, R151, R156: an idle block takes a GENERATE; time_s is sampled in this cycle, and only when TSLICE is 0. (That snap.time
otherwise keeps its value is log entry 7, DEDUCED.) -/
def Obligations.GenerateStartsWhenIdle : Prop :=
  ∀ (ie : Bool) (s : State), s.phase = .idle →
    exec (.generate ie) s = .next
      { s with
        ie := ie
        done := false
        errcode := 0
        lastop := 0x2
        curOp := .generate
        snap :=
          { len := s.secretLen
            secret := (List.range (min s.secretLen.toNat s.params.secretMax)).map s.secretByte
            tslice := s.tslice
            time := if s.tslice = 0 then s.timeS else s.snap.time }
        phase := .busy }

/-- R106: while BUSY a command word with OP ≠ 0 and every write to SECRET_LEN, TSLICE or a word of the SECRET window sets DROPPED
and changes nothing else, but that a CTRL write stores IE. -/
def Obligations.ABusyBlockDropsCommandsAndInputWrites : Prop :=
  ∀ s : State, s.phase = .busy →
    (∀ w : Word, w.toNat % 16 ≠ 0 → memWrite 0x008 w s = .next { s with ie := w.getLsbD 8, dropped := true }) ∧
    (∀ v, memWrite 0x010 v s = .next { s with dropped := true }) ∧
    (∀ v, memWrite 0x014 v s = .next { s with dropped := true }) ∧
    (∀ (off : BitVec 10) (v : Word), off.toNat % 4 = 0 → 0x100 ≤ off.toNat → off.toNat ≤ 0x1FC →
      memWrite off v s = .next { s with dropped := true }) ∧
    (∀ ie : Bool, exec (.decode ie) s = .next { s with ie := ie, dropped := true } ∧
      exec (.generate ie) s = .next { s with ie := ie, dropped := true })

/-- R105, R245: a reserved OP written while IDLE is rejected in the cycle of the write, with IllegalCommand; while BUSY it is
dropped and no IllegalCommand is reported. -/
def Obligations.AReservedOpIsRejectedAtOnce : Prop :=
  ∀ (w : Word) (s : State), 3 ≤ w.toNat % 16 →
    (s.phase = .idle →
      memWrite 0x008 w s = .next
        { s with ie := w.getLsbD 8, errcode := 8, lastop := BitVec.ofNat 4 (w.toNat % 16), done := true }) ∧
    (s.phase = .busy → memWrite 0x008 w s = .next { s with ie := w.getLsbD 8, dropped := true })

/-- R82: every CTRL write stores IE, whatever the OP and the phase; one without IE turns the interrupt off. -/
def Obligations.EveryCtrlWriteStoresIe : Prop :=
  ∀ (w : Word) (s : State), ∃ t, memWrite 0x008 w s = .next t ∧ t.ie = w.getLsbD 8 ∧ (w.getLsbD 8 = false → t.irq = false)

/-- The frame of the commands (R84, R102, R109): what a command word leaves unchanged when it is issued. -/
def Obligations.ACommandWordLeavesInputsAndResultsAlone : Prop :=
  ∀ (i : Instr) (s t : State), exec i s = .next t →
    t.params = s.params ∧ t.secretLen = s.secretLen ∧ t.tslice = s.tslice ∧ t.gen = s.gen ∧ t.keyLen = s.keyLen ∧
    t.timeS = s.timeS ∧ t.busRdata = s.busRdata ∧ t.busErr = s.busErr ∧ t.inputs = s.inputs ∧ t.draws = s.draws ∧
    (∀ a, t.secretByte a = s.secretByte a) ∧ (∀ a, t.keyByte a = s.keyByte a) ∧ (∀ a, t.ikey.read a = s.ikey.read a) ∧
    (∀ ie, i = .nop ie → t.phase = s.phase ∧ t.done = s.done ∧ t.dropped = s.dropped ∧ t.errcode = s.errcode ∧
      t.lastop = s.lastop ∧ t.curOp = s.curOp ∧ t.snap = s.snap) ∧
    (∀ ie, i = .decode ie ∨ i = .generate ie → s.phase = .idle → t.dropped = s.dropped) ∧
    (∀ ie, i = .decode ie ∨ i = .generate ie → s.phase = .busy → t.phase = s.phase ∧ t.done = s.done ∧
      t.errcode = s.errcode ∧ t.lastop = s.lastop ∧ t.curOp = s.curOp ∧ t.snap = s.snap)

/-! ### Completion (R103, R109, R133, R157 to R160) -/

/-- R133: the completion of DECODE. (What it leaves in cur_op and snap, which the spec leaves open, is not stated here.) -/
def Obligations.DecodeCompletionWritesTheKey : Prop :=
  ∀ (s : State) (r : Except Err (List Byte)), s.curOp = .decode →
    (r = if s.snap.len.toNat > s.params.secretMax then .error .secretTooLong else base32Decode s.snap.secret) →
    (∀ k, r = .ok k →
      s.complete =
        { s with
          keyLen := BitVec.ofNat 16 k.length
          key := s.complete.key
          errcode := 0
          done := true
          phase := .idle
          curOp := s.complete.curOp
          snap := s.complete.snap } ∧
      ∀ i, s.complete.keyByte i = if i < keyMax s.params then k.getD i 0 else 0) ∧
    (∀ e, r = .error e →
      s.complete =
        { s with
          keyLen := 0
          key := s.complete.key
          errcode := e.code
          done := true
          phase := .idle
          curOp := s.complete.curOp
          snap := s.complete.snap } ∧
      ∀ i, s.complete.keyByte i = 0) ∧
    (s.params.Legal → s.snap.secret.length ≤ s.params.secretMax →
      ∀ i, s.complete.keyLen.toNat ≤ i → s.complete.keyByte i = 0)

/-- R157, R158: the completion of GENERATE. `mac`, `v`, `code` and `digits` are R154's. (What it leaves in
cur_op and snap, which the spec leaves open, is not stated here.) -/
def Obligations.GenerateCompletionWritesTheResults : Prop :=
  ∀ (s : State) (r : Except Err (List Byte)), s.curOp = .generate →
    (r = if s.snap.len.toNat > s.params.secretMax then .error .secretTooLong else base32Decode s.snap.secret) →
    (∀ key ts mac v code digits, r = .ok key →
      ts = (if s.snap.tslice ≠ 0 then s.snap.tslice else BitVec.ofNat 32 (s.snap.time.toNat / 30)) →
      mac = hmacSha1 key (counterBytes ts) → v = truncate mac → code = v.toNat % 1000000 → digits = format6 code →
      s.complete =
        { s with
          gen :=
            { tsUsed := ts
              trunc := v
              code := BitVec.ofNat 20 code
              codeStr0 := le32 (byteAt digits 0) (byteAt digits 1) (byteAt digits 2) (byteAt digits 3)
              codeStr1 := (le32 (byteAt digits 4) (byteAt digits 5) 0x00 0x00).setWidth 16
              mac0 := be32 (byteAt mac 0) (byteAt mac 1) (byteAt mac 2) (byteAt mac 3)
              mac1 := be32 (byteAt mac 4) (byteAt mac 5) (byteAt mac 6) (byteAt mac 7)
              mac2 := be32 (byteAt mac 8) (byteAt mac 9) (byteAt mac 10) (byteAt mac 11)
              mac3 := be32 (byteAt mac 12) (byteAt mac 13) (byteAt mac 14) (byteAt mac 15)
              mac4 := be32 (byteAt mac 16) (byteAt mac 17) (byteAt mac 18) (byteAt mac 19) }
          ikey := []
          errcode := 0
          done := true
          phase := .idle
          curOp := s.complete.curOp
          snap := s.complete.snap }) ∧
    (∀ e, r = .error e →
      s.complete =
        { s with
          gen :=
            { tsUsed := 0, trunc := 0, code := 0, codeStr0 := 0, codeStr1 := 0,
              mac0 := 0, mac1 := 0, mac2 := 0, mac3 := 0, mac4 := 0 }
          ikey := []
          errcode := e.code
          done := true
          phase := .idle
          curOp := s.complete.curOp
          snap := s.complete.snap })

/-- The frame of a completion (R109, R159, R249): what it leaves unchanged, byte by byte for the buffers. That cur_op and snap
keep the finished command's values is the model's choice (log entry 18, DESIGN CHOICE). -/
def Obligations.ACompletionLeavesTheOtherCommandsResultsAlone : Prop :=
  ∀ s : State,
    (s.complete.params = s.params ∧ s.complete.ie = s.ie ∧ s.complete.dropped = s.dropped ∧ s.complete.lastop = s.lastop ∧
      s.complete.secretLen = s.secretLen ∧ s.complete.tslice = s.tslice ∧ s.complete.curOp = s.curOp ∧
      s.complete.snap = s.snap ∧ s.complete.timeS = s.timeS ∧ s.complete.busRdata = s.busRdata ∧ s.complete.busErr = s.busErr ∧
      s.complete.inputs = s.inputs ∧ s.complete.draws = s.draws ∧ ∀ a, s.complete.secretByte a = s.secretByte a) ∧
    (s.curOp = .decode → s.complete.gen = s.gen ∧ ∀ a, s.complete.ikey.read a = s.ikey.read a) ∧
    (s.curOp = .generate → s.complete.keyLen = s.keyLen ∧ (∀ a, s.complete.keyByte a = s.keyByte a) ∧
      ∀ a, s.complete.ikey.read a = 0)

/-- R160: what GENERATE writes depends on its snapshot alone; on snap.tslice when that is not 0, on the slice of snap.time
otherwise. -/
def Obligations.GenerateDependsOnItsSnapshotAlone : Prop :=
  ∀ s u : State, s.curOp = .generate → u.curOp = .generate → s.params.secretMax = u.params.secretMax →
    s.snap.len = u.snap.len → s.snap.secret = u.snap.secret → s.snap.tslice = u.snap.tslice →
    (s.snap.tslice = 0 → (s.snap.time.toNat / 30) % 2 ^ 32 = (u.snap.time.toNat / 30) % 2 ^ 32) →
    s.complete.gen = u.complete.gen ∧ s.complete.errcode = u.complete.errcode

/-- R74, R104, R106: from the start of a command on, nothing the host does short of reset changes what it computes or when its
results appear: whatever accesses come in between and however many cycles pass, the completion writes what it would have written
at the start. (The finishing cycle is given by the schedule, log entry 3.) -/
def Obligations.NothingTheHostDoesChangesARunningCommand : Prop :=
  ∀ (s : State) (c0 cf : ClockCycle) (cs rest : List ClockCycle) (ie : Bool) (op : Op) (u : State),
    s.phase = .idle → s.inputs = c0 :: (cs ++ cf :: rest) →
    c0.rstN = true → c0.sel = true → c0.write = true → c0.addr = 0x008 →
    (decodeWord c0.wdata = .ok (.decode ie) ∧ op = .decode ∨ decodeWord c0.wdata = .ok (.generate ie) ∧ op = .generate) →
    (∀ c ∈ cs, c.rstN = true ∧ c.finish = false) → cf.rstN = true → cf.finish = true →
    u = (State.start op { s with ie := ie, timeS := c0.timeS }).complete →
    ∃ t, Host.Core.run Sys2Proof.core (cs.length + 2) s = .next t ∧
      t.phase = .idle ∧ t.done = true ∧ t.errcode = u.errcode ∧ t.lastop = op.code ∧
      t.gen = u.gen ∧ t.keyLen = u.keyLen ∧ t.key = u.key ∧
      t.secretLen = s.secretLen ∧ t.secret = s.secret ∧ t.tslice = s.tslice ∧ t.params = s.params ∧
      (op = .generate → t.ikey = []) ∧ t.inputs = rest

/-- R104, R281: a running command completes, unless a reset comes first. (That a schedule is finite, and that the block completes
when it runs out, are log entries 2 and 3, DESIGN CHOICE.) -/
def Obligations.ARunningCommandCompletesUnlessReset : Prop :=
  ∀ s : State, s.phase = .busy → (∀ c ∈ s.inputs, c.rstN = true) →
    ∃ n t, n ≤ s.inputs.length + 1 ∧ Host.Core.run Sys2Proof.core n s = .next t ∧ t.phase = .idle ∧ t.done = true ∧
      t.lastop = s.lastop

/-! ### Invariants -/

/-- The state after reset is legal (R47; the list form of the buffers is log entry 13, DESIGN CHOICE). -/
def Obligations.ResetIsALegalState : Prop := LegalState State.reset

/-- Every step from a legal state leads to a legal state: the parameters in range (R5), the buffers inside their storage (R34,
R38, R44) and in the model's canonical list form (log entry 13, DESIGN CHOICE), STATUS coherent (R28 to R32, R240), the snapshot
live while BUSY (R43), no key in ikey between steps (R11, R44, R159; log entry 8, DEDUCED), KEY zero past KEY_LEN (R37, R38), the GENERATE results belonging together (R157, R158, R224). -/
def Obligations.EveryStepKeepsTheStateLegal : Prop :=
  ∀ s t : State, LegalState s → step s = .next t → LegalState t

/-- The buffers stay canonical and inside their storage from every state where they are so, whatever the rest of the state
(R34, R38, R44). The list form is the model's (log entry 13). -/
def Obligations.EveryStepKeepsTheBuffersCanonical : Prop :=
  ∀ s t : State, BuffersOk s → step s = .next t → BuffersOk t

/-! ### Whole-machine rules -/

/-- R36 to R42, R109, R225: KEY_LEN and KEY change only at the completion of a DECODE or at reset, the GENERATE results only at
the completion of a GENERATE or at reset. -/
def Obligations.ResultsChangeOnlyAtTheirOwnCompletionOrReset : Prop :=
  ∀ s t : State, step s = .next t → ¬ ResetNext s →
    (¬ CompletesNext .decode s → t.keyLen = s.keyLen ∧ ∀ a, t.keyByte a = s.keyByte a) ∧
    (¬ CompletesNext .generate s → t.gen = s.gen)

/-- R30, R106: what sets and what clears DROPPED; everything else, a command start among it, leaves it. -/
def Obligations.DroppedIsSticky : Prop :=
  ∀ s t : State, step s = .next t →
    (DiscardNext s → t.dropped = true) ∧
    (ResetNext s ∨ ClearNext 2 s → t.dropped = false) ∧
    (¬ DiscardNext s → ¬ ResetNext s → ¬ ClearNext 2 s → t.dropped = s.dropped)

/-- R29: what sets and what clears DONE; everything else, a NOP among it, leaves it. A completion in the cycle of a clearing write
leaves DONE = 1. -/
def Obligations.DoneIsSetAndClearedOnlyAsTheSpecSays : Prop :=
  ∀ s t : State, step s = .next t →
    (CompletionNext s ∨ RejectionNext s → t.done = true) ∧
    (ResetNext s ∨ StartNext s ∨ (ClearNext 1 s ∧ ¬ CompletionNext s) → t.done = false) ∧
    (¬ CompletionNext s → ¬ RejectionNext s → ¬ ResetNext s → ¬ StartNext s → ¬ ClearNext 1 s → t.done = s.done)

/-- R28, R31, R32: what writes BUSY (the phase), ERRCODE and LASTOP, and with what; everything else leaves them. -/
def Obligations.BusyErrcodeAndLastopAreWrittenOnlyByCommands : Prop :=
  ∀ s t : State, step s = .next t →
    (ResetNext s → t.phase = .idle ∧ t.errcode = 0 ∧ t.lastop = 0) ∧
    (StartNext s → t.phase = .busy ∧ t.errcode = 0) ∧
    (CompletionNext s → t.phase = .idle ∧
      (∀ e, decodeSnap s.params s.snap = .error e → t.errcode = e.code) ∧
      (∀ k, decodeSnap s.params s.snap = .ok k → t.errcode = 0)) ∧
    (RejectionNext s → t.phase = .idle ∧ t.errcode = 8) ∧
    (¬ ResetNext s → ¬ StartNext s → ¬ CompletionNext s → t.phase = s.phase ∧ (¬ RejectionNext s → t.errcode = s.errcode)) ∧
    (∀ w : Word, CommandNext w s → StartNext s ∨ RejectionNext s → t.lastop.toNat = w.toNat % 16) ∧
    (¬ ResetNext s → ¬ StartNext s → ¬ RejectionNext s → t.lastop = s.lastop)

/-- R251: irq rises only with a completion, the rejection of a reserved OP, or a CTRL write that sets IE; it falls only with a
reset, a start, an acknowledgement of DONE, or a CTRL write that clears IE. -/
def Obligations.IrqRisesAndFallsOnlyAsTheSpecSays : Prop :=
  ∀ s t : State, step s = .next t →
    (s.irq = false → t.irq = true →
      CompletionNext s ∨ RejectionNext s ∨ ∃ w : Word, CommandNext w s ∧ w.getLsbD 8 = true) ∧
    (s.irq = true → t.irq = false →
      ResetNext s ∨ StartNext s ∨ ClearNext 1 s ∨ ∃ w : Word, CommandNext w s ∧ w.getLsbD 8 = false)

/-- R74, R106, R249: while BUSY the inputs do not change, short of reset, and neither does LASTOP. -/
def Obligations.InputsAreFixedWhileBusy : Prop :=
  ∀ s t : State, step s = .next t → s.phase = .busy → ¬ ResetNext s →
    t.secretLen = s.secretLen ∧ t.tslice = s.tslice ∧ (∀ a, t.secretByte a = s.secretByte a) ∧ t.lastop = s.lastop

/-! ### Reset (70_reset_and_hazards) -/

/-- R47: every value the table gives, at the spec's default SECRET_MAX (cur_op and snap, which it leaves unspecified, are not stated). -/
def Obligations.ResetGivesTheSpecsValues : Prop :=
  (memRead 0x000 State.reset).busRdata = some 0x41555448 ∧ (memRead 0x004 State.reset).busRdata = some 0x06A00100 ∧
  (memRead 0x008 State.reset).busRdata = some 0 ∧ (memRead 0x00C State.reset).busRdata = some 0 ∧
  State.reset.secretLen = 0 ∧ (∀ i, State.reset.secretByte i = 0) ∧ State.reset.tslice = 0 ∧
  State.reset.gen = { tsUsed := 0, trunc := 0, code := 0, codeStr0 := 0, codeStr1 := 0, mac0 := 0, mac1 := 0, mac2 := 0,
                      mac3 := 0, mac4 := 0 } ∧
  State.reset.keyLen = 0 ∧ (∀ i, State.reset.keyByte i = 0) ∧ State.reset.phase = .idle ∧
  (∀ i, State.reset.ikey.read i = 0) ∧ State.reset.irq = false

/-- R270: a cycle with rst_n = 0 overrides its access and a completion: every register is at its reset value, a running command
is abandoned without DONE, a read returns 0, there is no bus error. (Reset seen as whole cycles, and the parameters staying, are log
entry 15.) -/
def Obligations.ResetOverridesEverythingInItsCycle : Prop :=
  ∀ (s : State) (c : ClockCycle) (rest : List ClockCycle), s.inputs = c :: rest → c.rstN = false →
    ∃ t, step s = .next t ∧
      t.phase = .idle ∧ t.ie = false ∧ t.done = false ∧ t.dropped = false ∧ t.errcode = 0 ∧ t.lastop = 0 ∧
      t.secretLen = 0 ∧ (∀ i, t.secretByte i = 0) ∧ t.tslice = 0 ∧ t.gen = GenRegs.zero ∧ t.keyLen = 0 ∧
      (∀ i, t.keyByte i = 0) ∧ (∀ i, t.ikey.read i = 0) ∧ t.irq = false ∧ t.busErr = false ∧ t.params = s.params ∧
      (c.sel = true → c.write = false → t.busRdata = some 0)

/-- R272: reset zeroes all key material; every word of both windows then reads 0; TSLICE is the sentinel, so a GENERATE then
samples the time source. -/
def Obligations.NoKeyMaterialSurvivesReset : Prop :=
  ∀ (s t : State) (c : ClockCycle) (rest : List ClockCycle), s.inputs = c :: rest → c.rstN = false → step s = .next t →
    (∀ i, t.secret.read i = 0) ∧ (∀ i, t.key.read i = 0) ∧ (∀ i, t.ikey.read i = 0) ∧
    (∀ off : BitVec 10, off.toNat % 4 = 0 →
      (0x100 ≤ off.toNat ∧ off.toNat ≤ 0x1FC ∨ 0x200 ≤ off.toNat ∧ off.toNat ≤ 0x2FC) →
      (memRead off t).busRdata = some 0) ∧
    t.tslice = 0 ∧
    (∀ ie, ∃ u, exec (.generate ie) t = .next u ∧ u.phase = .busy ∧ u.snap.tslice = 0 ∧ u.snap.time = t.timeS)

/-! ### The bus (20_memory, 10_state) -/

/-- R64: a misaligned access gets bus_err = 1, a read data of 0, and changes no state. -/
def Obligations.AMisalignedAccessOnlyReportsABusError : Prop :=
  ∀ (off : BitVec 10) (v : Word) (s : State), off.toNat % 4 ≠ 0 →
    memWrite off v s = .next { s with busErr := true } ∧
    memRead off s = { s with busRdata := some 0, busErr := true }

/-- R64, R247: in a cycle without reset, bus_err is 1 exactly when a misaligned access is presented. -/
def Obligations.ABusErrorMarksExactlyTheMisalignedAccesses : Prop :=
  ∀ (s t : State) (c : ClockCycle) (rest : List ClockCycle), s.inputs = c :: rest → c.rstN = true → step s = .next t →
    (t.busErr = true ↔ c.sel = true ∧ c.addr.toNat % 4 ≠ 0)

/-- R70: a read changes nothing but the bus outputs (and the model's own count of free values drawn, log entry 5), and reads the
same again unless its value is unspecified. -/
def Obligations.AReadHasNoSideEffect : Prop :=
  ∀ (off : BitVec 10) (s : State),
    memRead off s =
      { s with busRdata := (memRead off s).busRdata, busErr := (memRead off s).busErr, draws := (memRead off s).draws } ∧
    (s.phase = .idle → (memRead off (memRead off s)).busRdata = (memRead off s).busRdata)

/-- R23 to R27, R33 to R42, R66, R71: what each offset reads as while IDLE; LE32 puts the first byte in the lowest lane (R9). -/
def Obligations.EveryOffsetReadsAsTheRegisterMapSays : Prop :=
  (∀ a b c d : Byte, (le32 a b c d).toNat = a.toNat + b.toNat * 2 ^ 8 + c.toNat * 2 ^ 16 + d.toNat * 2 ^ 24) ∧
  ∀ s : State, s.phase = .idle →
    (memRead 0x000 s).busRdata = some 0x41555448 ∧
    (memRead 0x004 s).busRdata = some (paramWord s.params) ∧
    (memRead 0x008 s).busRdata = some (if s.ie then 0x100 else 0) ∧
    (memRead 0x00C s).busRdata = some s.statusWord ∧
    (memRead 0x010 s).busRdata = some (s.secretLen.setWidth 32) ∧
    (memRead 0x014 s).busRdata = some s.tslice ∧
    (memRead 0x018 s).busRdata = some s.gen.tsUsed ∧
    (memRead 0x01C s).busRdata = some (s.keyLen.setWidth 32) ∧
    (memRead 0x020 s).busRdata = some (s.gen.trunc.setWidth 32) ∧
    (memRead 0x024 s).busRdata = some (s.gen.code.setWidth 32) ∧
    (memRead 0x028 s).busRdata = some s.gen.codeStr0 ∧
    (memRead 0x02C s).busRdata = some (s.gen.codeStr1.setWidth 32) ∧
    (memRead 0x030 s).busRdata = some s.gen.mac0 ∧
    (memRead 0x034 s).busRdata = some s.gen.mac1 ∧
    (memRead 0x038 s).busRdata = some s.gen.mac2 ∧
    (memRead 0x03C s).busRdata = some s.gen.mac3 ∧
    (memRead 0x040 s).busRdata = some s.gen.mac4 ∧
    (∀ j < 64, (memRead (BitVec.ofNat 10 (0x100 + 4 * j)) s).busRdata =
      some (le32 (s.secretByte (4 * j)) (s.secretByte (4 * j + 1)) (s.secretByte (4 * j + 2)) (s.secretByte (4 * j + 3)))) ∧
    (∀ j < 64, (memRead (BitVec.ofNat 10 (0x200 + 4 * j)) s).busRdata =
      some (le32 (s.keyByte (4 * j)) (s.keyByte (4 * j + 1)) (s.keyByte (4 * j + 2)) (s.keyByte (4 * j + 3)))) ∧
    (∀ off : BitVec 10, off.toNat % 4 = 0 →
      (0x044 ≤ off.toNat ∧ off.toNat ≤ 0x0FC ∨ 0x300 ≤ off.toNat ∧ off.toNat ≤ 0x3FC) →
      (memRead off s).busRdata = some 0)

/-- R108: while BUSY a read of a result register or of a word of the KEY window is a fresh free value (in the form of log
entry 5); every other aligned read returns what the place holds. -/
def Obligations.ResultReadsAreUnspecifiedWhileBusy : Prop :=
  ∀ (off : BitVec 10) (s : State), s.phase = .busy → off.toNat % 4 = 0 →
    (0x018 ≤ off.toNat ∧ off.toNat ≤ 0x040 ∨ 0x200 ≤ off.toNat ∧ off.toNat ≤ 0x2FC →
      memRead off s = { s with busRdata := some (Config.freeWord s.draws), draws := s.draws + 1 }) ∧
    (¬ (0x018 ≤ off.toNat ∧ off.toNat ≤ 0x040 ∨ 0x200 ≤ off.toNat ∧ off.toNat ≤ 0x2FC) →
      memRead off s = { s with busRdata := some (s.readLoc (locate off)) })

/-- R63, R71: a write to a read-only register, to the KEY window or to a reserved offset is ignored in either phase, without an
error and without setting DROPPED. -/
def Obligations.WritesToReadOnlyAndReservedPlacesAreIgnored : Prop :=
  ∀ (off : BitVec 10) (v : Word) (s : State), off.toNat % 4 = 0 →
    (off.toNat ≤ 0x004 ∨ 0x018 ≤ off.toNat ∧ off.toNat ≤ 0x0FC ∨ 0x200 ≤ off.toNat) →
    memWrite off v s = .next s

/-- R27, R253: a STATUS write, in either phase, clears the flags it names and nothing else. -/
def Obligations.AStatusWriteClearsOnlyTheFlagsItNames : Prop :=
  ∀ (v : Word) (s : State),
    memWrite 0x00C v s = .next
      { s with
        done := if v.getLsbD 1 then false else s.done
        dropped := if v.getLsbD 2 then false else s.dropped }

/-- R27, R28: the layout of STATUS, BUSY being the phase. -/
def Obligations.StatusHasTheSpecsLayout : Prop :=
  ∀ s : State,
    s.statusWord.getLsbD 0 = decide (s.phase = .busy) ∧ s.statusWord.getLsbD 1 = s.done ∧
    s.statusWord.getLsbD 2 = s.dropped ∧ s.statusWord.getLsbD 3 = false ∧
    s.statusWord.extractLsb' 4 4 = s.errcode ∧ s.statusWord.extractLsb' 8 4 = s.lastop ∧
    s.statusWord.extractLsb' 12 20 = 0

/-- R25: PARAM, for every legal SECRET_MAX; at the default it reads 0x06A00100; writes are ignored. -/
def Obligations.ParamHasTheSpecsLayout : Prop :=
  (∀ p : Params, p.Legal →
    ((paramWord p).extractLsb' 0 9).toNat = p.secretMax ∧ (paramWord p).extractLsb' 9 7 = 0 ∧
    ((paramWord p).extractLsb' 16 8).toNat = 5 * p.secretMax / 8 ∧ (paramWord p).extractLsb' 24 4 = 6 ∧
    (paramWord p).extractLsb' 28 4 = 0 ∧ (p.secretMax = 256 → paramWord p = 0x06A00100)) ∧
  ∀ (v : Word) (s : State), memWrite 0x004 v s = .next s

/-- R33, R34, R35, R63: an idle block stores what is written to its inputs: the low half in SECRET_LEN, the word in TSLICE, the
four byte lanes in the SECRET bytes that exist; nothing else changes. -/
def Obligations.AnIdleBlockStoresItsInputs : Prop :=
  ∀ (v : Word) (s : State), s.phase = .idle →
    memWrite 0x010 v s = .next { s with secretLen := v.setWidth 16 } ∧
    memWrite 0x014 v s = .next { s with tslice := v } ∧
    (s.secret.wf = true → ∀ j < 64, ∃ t, memWrite (BitVec.ofNat 10 (0x100 + 4 * j)) v s = .next t ∧
      t = { s with secret := t.secret } ∧
      ∀ a, t.secretByte a =
        if 4 * j ≤ a ∧ a < 4 * j + 4 ∧ a < s.params.secretMax then BitVec.ofNat 8 (v.toNat / 2 ^ (8 * (a - 4 * j)))
        else s.secretByte a)

/-! ### The decoder (41_base32_decoder) -/

/-- R120: the reverse lookup is the alphabet's, and every other byte has no index. -/
def Obligations.TheLookupInvertsTheAlphabet : Prop :=
  ∀ (c : Byte) (i : Nat), b32Index c = some i ↔ alphabet[i]? = some c

/-- R123: the padding count is the length of the longest run of '=' that ends at the last byte. -/
def Obligations.ThePaddingCountIsTheLongestTrailingRun : Prop :=
  ∀ s : List Byte,
    trailingPads s ≤ s.length ∧ (∀ i, s.length - trailingPads s ≤ i → i < s.length → s[i]? = some padByte) ∧
    (trailingPads s < s.length → s[s.length - trailingPads s - 1]? ≠ some padByte)

/-- R246, R248: which error a command reports: the first failing check in the order SecretTooLong, EmptySecret, InvalidPaddingCount,
InvalidPaddingPlacement, InvalidCharacter; none of them is IllegalCommand; a secret that passes every check decodes. The ERRCODE
that the completion of either command leaves is R240's number of that error: 9, 1, 2, 3, 4, and 0 where every check passes. -/
def Obligations.TheFirstFailingCheckGivesTheError : Prop :=
  (∀ (p : Params) (n : Snap),
    (decodeSnap p n = .error .secretTooLong ↔ p.secretMax < n.len.toNat) ∧
    (decodeSnap p n = .error .emptySecret ↔ n.len.toNat ≤ p.secretMax ∧ n.secret = []) ∧
    (decodeSnap p n = .error .invalidPaddingCount ↔
      n.len.toNat ≤ p.secretMax ∧ n.secret ≠ [] ∧ trailingPads n.secret ∉ [0, 1, 3, 4, 6]) ∧
    (decodeSnap p n = .error .invalidPaddingPlacement ↔
      n.len.toNat ≤ p.secretMax ∧ n.secret ≠ [] ∧ trailingPads n.secret ∈ [0, 1, 3, 4, 6] ∧ 0x3D ∈ dataChars n.secret) ∧
    (decodeSnap p n = .error .invalidCharacter ↔
      n.len.toNat ≤ p.secretMax ∧ n.secret ≠ [] ∧ trailingPads n.secret ∈ [0, 1, 3, 4, 6] ∧ 0x3D ∉ dataChars n.secret ∧
        ∃ c ∈ dataChars n.secret, c ∉ alphabet) ∧
    decodeSnap p n ≠ .error .illegalCommand ∧
    ((∃ k, decodeSnap p n = .ok k) ↔
      n.len.toNat ≤ p.secretMax ∧ n.secret ≠ [] ∧ trailingPads n.secret ∈ [0, 1, 3, 4, 6] ∧
        ∀ c ∈ dataChars n.secret, c ∈ alphabet)) ∧
  ∀ s : State, s.curOp = .decode ∨ s.curOp = .generate →
    s.complete.errcode =
      if s.params.secretMax < s.snap.len.toNat then 9
      else if s.snap.secret = [] then 1
      else if trailingPads s.snap.secret ∉ [0, 1, 3, 4, 6] then 2
      else if 0x3D ∈ dataChars s.snap.secret then 3
      else if ∃ c ∈ dataChars s.snap.secret, c ∉ alphabet then 4
      else 0

/-- R126, R127, R128: the decoded bytes are the whole bytes of the bit string the data characters' 5-bit indexes make, first
character first and most significant bit first; the trailing bits are dropped. -/
def Obligations.TheDecodedBytesAreTheWholeBytesOfTheBitString : Prop :=
  ∀ s b : List Byte, base32Decode s = .ok b →
    ∃ v : List Nat, (dataChars s).map b32Index = v.map some ∧
      byteBits b = (indexBits v).take (8 * (5 * v.length / 8))

/-- R129: the length of the output, and its bound by KEY_MAX, floor(5 * SECRET_MAX / 8) (R5), for a secret that fits. -/
def Obligations.TheDecodedLengthFollowsTheDataCharacters : Prop :=
  ∀ s b : List Byte, base32Decode s = .ok b →
    b.length = 5 * ((dataChars s).length / 8) + 5 * ((dataChars s).length % 8) / 8 ∧
    ∀ p : Params, keyMax p = 5 * p.secretMax / 8 ∧ (s.length ≤ p.secretMax → b.length ≤ keyMax p)

/-- R131: standard base32 of any nonempty byte sequence has a legal padding count and decodes to that sequence. (The empty
sequence encodes to the empty secret, which R122 rejects.) -/
def Obligations.StandardBase32DecodesToItsBytes : Prop :=
  ∀ b : List Byte, b ≠ [] → trailingPads (base32Encode b) ∈ [0, 1, 3, 4, 6] ∧ base32Decode (base32Encode b) = .ok b

/-! ### The generator, the hash and the truncation (42, 43, 44) -/

/-- R150, R151, R152: the slice is TSLICE, or (t div 30) mod 2^32 of the sampled time when TSLICE is the sentinel 0. -/
def Obligations.TheSliceIsTsliceOrTheClocks : Prop :=
  ∀ n : Snap,
    (n.tslice ≠ 0 → resolveSlice n = n.tslice) ∧
    (n.tslice = 0 → (resolveSlice n).toNat = (n.time.toNat / 30) % 2 ^ 32)

/-- R153: the counter is four zero bytes and the slice big-endian, which is BEbytes64 of the widened slice. -/
def Obligations.TheCounterIsTheSliceBigEndian : Prop :=
  ∀ ts : Word,
    counterBytes ts =
      [0, 0, 0, 0, ts.extractLsb' 24 8, ts.extractLsb' 16 8, ts.extractLsb' 8 8, ts.extractLsb' 0 8] ∧
    counterBytes ts = beBytes64 (ts.setWidth 64) ∧ bytesValue (counterBytes ts) = ts.toNat

/-- R182: the padded message fills whole blocks, with the least number of zero bytes; 0 to 55 bytes pad to one block, 56 to 119
to two; the length field is big-endian (R9). R180 gives SHA-1 below 2^61 bytes; from there on the length field is taken mod 2^64,
the model's choice (log entry 10, DESIGN CHOICE). -/
def Obligations.Sha1PaddingFillsWholeBlocks : Prop :=
  ∀ m : List Byte, ∃ z,
    (m.length + 1 + z + 8) % 64 = 0 ∧ (∀ n < z, (m.length + 1 + n + 8) % 64 ≠ 0) ∧
    sha1Pad m = m ++ [0x80] ++ List.replicate z 0 ++ beBytes64 (BitVec.ofNat 64 (8 * m.length)) ∧
    (beBytes64 (BitVec.ofNat 64 (8 * m.length))).length = 8 ∧
    bytesValue (beBytes64 (BitVec.ofNat 64 (8 * m.length))) = 8 * m.length % 2 ^ 64 ∧
    (sha1Pad m).length = m.length + 1 + z + 8 ∧
    (m.length ≤ 55 → (sha1Pad m).length = 64) ∧ (56 ≤ m.length → m.length ≤ 119 → (sha1Pad m).length = 128)

/-- R183: the message schedule. -/
def Obligations.TheScheduleFollowsItsRecurrence : Prop :=
  ∀ x : List Byte, (schedule x).length = 80 ∧
    (∀ t < 16, (schedule x).getD t 0 =
      be32 (byteAt x (4 * t)) (byteAt x (4 * t + 1)) (byteAt x (4 * t + 2)) (byteAt x (4 * t + 3))) ∧
    (∀ t, 16 ≤ t → t < 80 → (schedule x).getD t 0 =
      rotl 1 ((schedule x).getD (t - 3) 0 ^^^ (schedule x).getD (t - 8) 0 ^^^ (schedule x).getD (t - 14) 0 ^^^
        (schedule x).getD (t - 16) 0))

/-- R184: the round functions and constants, by the table's ranges of t. -/
def Obligations.RoundFunctionsAndConstantsFollowTheTable : Prop :=
  ∀ (t : Nat) (x y z : Word), t < 80 →
    (t ≤ 19 → sha1F t x y z = (x &&& y) ^^^ (~~~x &&& z) ∧ sha1K t = 0x5A827999) ∧
    (20 ≤ t → t ≤ 39 → sha1F t x y z = x ^^^ y ^^^ z ∧ sha1K t = 0x6ED9EBA1) ∧
    (40 ≤ t → t ≤ 59 → sha1F t x y z = (x &&& y) ^^^ (x &&& z) ^^^ (y &&& z) ∧ sha1K t = 0x8F1BBCDC) ∧
    (60 ≤ t → sha1F t x y z = x ^^^ y ^^^ z ∧ sha1K t = 0xCA62C1D6)

/-- R185: the compression is the initial hash value plus, word by word, the working variables after the 80 rounds; `v t` are the
variables before round t. ROTL_n moves bit i of a word to bit (i + n) mod 32 (R8). -/
def Obligations.TheCompressionRunsEightyRounds : Prop :=
  (∀ n < 32, ∀ (x : Word), ∀ i < 32, (rotl n x).getLsbD ((i + n) % 32) = x.getLsbD i) ∧
  ∀ (h : Hash) (x : List Byte) (v : Nat → Hash), v 0 = h →
    (∀ t < 80, v (t + 1) =
      { h0 := rotl 5 (v t).h0 + sha1F t (v t).h1 (v t).h2 (v t).h3 + (v t).h4 + sha1K t + (schedule x).getD t 0
        h1 := (v t).h0
        h2 := rotl 30 (v t).h1
        h3 := (v t).h2
        h4 := (v t).h3 }) →
    compress h x =
      { h0 := h.h0 + (v 80).h0, h1 := h.h1 + (v 80).h1, h2 := h.h2 + (v 80).h2, h3 := h.h3 + (v 80).h3,
        h4 := h.h4 + (v 80).h4 }

/-- R188: a key of at most 64 bytes is padded with zeros, a longer one is hashed first; the result has 64 bytes always. -/
def Obligations.ThePreparedKeyHas64Bytes : Prop :=
  ∀ k : List Byte, (keyPrep k).length = 64 ∧
    (k.length ≤ 64 → keyPrep k = k ++ List.replicate (64 - k.length) 0) ∧
    (64 < k.length → keyPrep k = sha1 k ++ List.replicate 44 0)

/-- R186, R190: a digest has 20 bytes, four for each hash word, big-endian (R9), and so has a mac. R180, R181: SHA-1 chains the
compression from the initial hash value over the 64-byte blocks of the padded message, in order, and answers the digest. R189, R190:
HMAC hashes the prepared key exclusive-ored with 0x36 bytes before the message, then that key exclusive-ored with 0x5C bytes before
the inner digest. (R180 gives SHA-1 below 2^61 bytes; longer messages are log entry 10, DESIGN CHOICE.) -/
def Obligations.DigestsAndMacsHave20Bytes : Prop :=
  (∀ a b c d : Byte, (be32 a b c d).toNat = a.toNat * 2 ^ 24 + b.toNat * 2 ^ 16 + c.toNat * 2 ^ 8 + d.toNat) ∧
  (∀ h : Hash, h.digest.length = 20 ∧
    be32 (byteAt h.digest 0) (byteAt h.digest 1) (byteAt h.digest 2) (byteAt h.digest 3) = h.h0 ∧
    be32 (byteAt h.digest 4) (byteAt h.digest 5) (byteAt h.digest 6) (byteAt h.digest 7) = h.h1 ∧
    be32 (byteAt h.digest 8) (byteAt h.digest 9) (byteAt h.digest 10) (byteAt h.digest 11) = h.h2 ∧
    be32 (byteAt h.digest 12) (byteAt h.digest 13) (byteAt h.digest 14) (byteAt h.digest 15) = h.h3 ∧
    be32 (byteAt h.digest 16) (byteAt h.digest 17) (byteAt h.digest 18) (byteAt h.digest 19) = h.h4) ∧
  (∀ m : List Byte, sha1 m = (sha1Hash m).digest ∧
    sha1Hash m =
      (List.range ((sha1Pad m).length / 64)).foldl (fun h i => compress h (((sha1Pad m).drop (64 * i)).take 64))
        { h0 := 0x67452301, h1 := 0xEFCDAB89, h2 := 0x98BADCFE, h3 := 0x10325476, h4 := 0xC3D2E1F0 }) ∧
  ∀ k m : List Byte, (hmacSha1 k m).length = 20 ∧
    hmacSha1 k m =
      sha1 (List.zipWith (fun x y => x ^^^ y) (keyPrep k) (List.replicate 64 0x5C) ++
        sha1 (List.zipWith (fun x y => x ^^^ y) (keyPrep k) (List.replicate 64 0x36) ++ m))

/-- R192: zero bytes at the end of a key that stays within 64 bytes do not change the mac. -/
def Obligations.TrailingZeroKeyBytesDoNotChangeTheMac : Prop :=
  ∀ (k m : List Byte) (n : Nat), k.length + n ≤ 64 → hmacSha1 (k ++ List.replicate n 0) m = hmacSha1 k m

/-- R220, R221: the offset is the low nibble of mac[19]; the four bytes read lie at or below mac[18]; they are read big-endian
with bit 31 dropped. -/
def Obligations.TruncationReadsFourBytesBigEndian : Prop :=
  ∀ mac : List Byte,
    macOffset mac = (mac.getD 19 0).toNat % 16 ∧ macOffset mac + 3 ≤ 18 ∧
    (truncate mac).toNat =
      ((mac.getD (macOffset mac) 0).toNat * 2 ^ 24 + (mac.getD (macOffset mac + 1) 0).toNat * 2 ^ 16 +
        (mac.getD (macOffset mac + 2) 0).toNat * 2 ^ 8 + (mac.getD (macOffset mac + 3) 0).toNat) % 2 ^ 31

/-- R222: the code is the exact remainder, and fits. -/
def Obligations.TheCodeIsTheExactRemainder : Prop :=
  ∀ v : BitVec 31, (codeOf v).toNat = v.toNat % 1000000 ∧ (codeOf v).toNat ≤ 999999

/-- R223: six ASCII digits that write the code, leading zeros kept. -/
def Obligations.SixDigitsWriteTheCode : Prop :=
  ∀ code : Nat, code ≤ 999999 →
    (format6 code).length = 6 ∧ (∀ d ∈ format6 code, 0x30 ≤ d.toNat ∧ d.toNat ≤ 0x39) ∧ digitsValue (format6 code) = code

/-- R41, R224: the CODE_STR registers of a result hold the six digits of its CODE, c0 in the lowest lane; the upper half of
CODE_STR1 reads 0. -/
def Obligations.CodeStrHoldsTheDigitsOfCode : Prop :=
  ∀ (ts : Word) (mac : List Byte) (g : GenRegs), g = genRegsOf ts mac →
    (∀ i < 4, g.codeStr0.extractLsb' (8 * i) 8 = (format6 g.code.toNat).getD i 0) ∧
    (∀ i < 2, g.codeStr1.extractLsb' (8 * i) 8 = (format6 g.code.toNat).getD (4 + i) 0) ∧
    (g.codeStr1.setWidth 32).extractLsb' 16 16 = 0
end

