-- ==== Sys2Proof/Laws/Memory.lean ====
section
/-! SUPPORT. The laws of the byte buffers: reading what was written, and that every operation keeps the canonical form. -/

namespace Sys2Proof.Machine

open Sys2Proof

@[simp] theorem Memory.read_nil (a : Nat) : Memory.read [] a = 0 := rfl

@[simp] theorem Memory.wf_nil : Memory.wf [] = true := rfl

@[simp] theorem Memory.below_nil (n : Nat) : Memory.below n [] = true := rfl

theorem Memory.wfFrom_cons {lo k : Nat} {b : Byte} {m : Memory} :
    Memory.wfFrom lo ((k, b) :: m) = true ↔ lo ≤ k ∧ b ≠ 0 ∧ Memory.wfFrom (k + 1) m = true := by
  simp [Memory.wfFrom, and_assoc]

/-- The form from a bound is the form from every lower bound. -/
theorem Memory.wfFrom_mono {m : Memory} {lo lo' : Nat} (h : lo' ≤ lo) (hm : Memory.wfFrom lo m = true) :
    Memory.wfFrom lo' m = true := by
  cases m with
  | nil => rfl
  | cons c rest =>
    obtain ⟨k, b⟩ := c
    rw [Memory.wfFrom_cons] at hm ⊢
    exact ⟨by omega, hm.2⟩

/-- Nothing is listed below the bound. -/
theorem Memory.read_lt {m : Memory} : ∀ {lo a : Nat}, Memory.wfFrom lo m = true → a < lo → Memory.read m a = 0 := by
  induction m with
  | nil => intros; rfl
  | cons c rest ih =>
    obtain ⟨k, b⟩ := c
    intro lo a hm ha
    rw [Memory.wfFrom_cons] at hm
    have hk : k ≠ a := by omega
    simp only [Memory.read, hk, if_false]
    exact ih hm.2.2 (by omega)

theorem Memory.wfFrom_write {m : Memory} {v : Byte} {a : Nat} :
    ∀ {lo : Nat}, Memory.wfFrom lo m = true → lo ≤ a → Memory.wfFrom lo (Memory.write m a v) = true := by
  induction m with
  | nil =>
    intro lo _ ha
    unfold Memory.write
    split
    · rfl
    · exact Memory.wfFrom_cons.mpr ⟨ha, ‹_›, rfl⟩
  | cons c rest ih =>
    obtain ⟨k, b⟩ := c
    intro lo hm ha
    have hm' := Memory.wfFrom_cons.mp hm
    unfold Memory.write
    split
    · split
      · exact hm
      · rename_i hak hv
        exact Memory.wfFrom_cons.mpr ⟨ha, hv, Memory.wfFrom_cons.mpr ⟨by omega, hm'.2⟩⟩
    · split
      · split
        · exact Memory.wfFrom_mono (by omega) hm'.2.2
        · rename_i hak hv
          exact Memory.wfFrom_cons.mpr ⟨ha, hv, by subst hak; exact hm'.2.2⟩
      · exact Memory.wfFrom_cons.mpr ⟨hm'.1, hm'.2.1, ih hm'.2.2 (by omega)⟩

/-- A write keeps the canonical form. -/
theorem Memory.wf_write {m : Memory} (a : Nat) (v : Byte) (h : m.wf = true) : (m.write a v).wf = true :=
  Memory.wfFrom_write h (Nat.zero_le a)

theorem Memory.read_write_same_from {m : Memory} {a : Nat} {v : Byte} :
    ∀ {lo : Nat}, Memory.wfFrom lo m = true → (m.write a v).read a = v := by
  induction m with
  | nil =>
    intro lo _
    unfold Memory.write
    split
    · rename_i hv
      exact hv.symm
    · simp [Memory.read]
  | cons c rest ih =>
    obtain ⟨k, b⟩ := c
    intro lo hm
    have hm' := Memory.wfFrom_cons.mp hm
    unfold Memory.write
    split
    · rename_i hak
      split
      · rename_i hv
        have := Memory.read_lt (m := (k, b) :: rest) (lo := k) (a := a)
          (Memory.wfFrom_cons.mpr ⟨Nat.le_refl k, hm'.2⟩) hak
        rw [this, hv]
      · simp [Memory.read]
    · split
      · rename_i hak
        split
        · rename_i hv
          rw [Memory.read_lt hm'.2.2 (by omega), hv]
        · simp [Memory.read]
      · rename_i h1 h2
        have hk : k ≠ a := fun e => h2 e.symm
        simp [Memory.read, hk, ih hm'.2.2]

/-- A byte reads as it was written. -/
theorem Memory.read_write_same {m : Memory} (a : Nat) (v : Byte) (h : m.wf = true) : (m.write a v).read a = v :=
  Memory.read_write_same_from h

/-- A write leaves every other byte alone. -/
theorem Memory.read_write_other (m : Memory) {a a' : Nat} (v : Byte) (h : a' ≠ a) : (m.write a v).read a' = m.read a' := by
  induction m with
  | nil =>
    unfold Memory.write
    split
    · rfl
    · simp [Memory.read, h.symm]
  | cons c rest ih =>
    obtain ⟨k, b⟩ := c
    unfold Memory.write
    split
    · split
      · rfl
      · simp [Memory.read, h.symm]
    · split
      · rename_i hak
        have hk : k ≠ a' := by omega
        split
        · simp [Memory.read, hk]
        · simp [Memory.read, hk, h.symm]
      · by_cases hk : k = a'
        · simp [Memory.read, hk]
        · simp [Memory.read, hk, ih]

/-- A read of a written buffer, either way. -/
theorem Memory.read_write {m : Memory} (a a' : Nat) (v : Byte) (h : m.wf = true) :
    (m.write a v).read a' = if a' = a then v else m.read a' := by
  by_cases e : a' = a
  · subst e; simp [Memory.read_write_same a' v h]
  · simp [e, Memory.read_write_other m v e]

theorem Memory.below_cons {n k : Nat} {b : Byte} {m : Memory} :
    Memory.below n ((k, b) :: m) = true ↔ k < n ∧ Memory.below n m = true := by
  simp [Memory.below]

/-- A write inside the storage lists nothing outside it. -/
theorem Memory.below_write {n : Nat} {m : Memory} (a : Nat) (v : Byte) (h : m.below n = true) (ha : a < n) :
    (m.write a v).below n = true := by
  induction m with
  | nil =>
    unfold Memory.write
    split
    · rfl
    · exact Memory.below_cons.mpr ⟨ha, rfl⟩
  | cons c rest ih =>
    obtain ⟨k, b⟩ := c
    have h' := Memory.below_cons.mp h
    unfold Memory.write
    split
    · split
      · exact h
      · exact Memory.below_cons.mpr ⟨ha, h⟩
    · split
      · split
        · exact h'.2
        · exact Memory.below_cons.mpr ⟨ha, h'.2⟩
      · exact Memory.below_cons.mpr ⟨h'.1, ih h'.2⟩

/-- A byte outside the storage reads 0. -/
theorem Memory.read_of_below {n : Nat} {m : Memory} (h : m.below n = true) {i : Nat} (hi : n ≤ i) : m.read i = 0 := by
  induction m with
  | nil => rfl
  | cons c rest ih =>
    obtain ⟨k, b⟩ := c
    have h' := Memory.below_cons.mp h
    have hk : k ≠ i := by omega
    simp [Memory.read, hk, ih h'.2]

theorem Memory.wfFrom_ofBytesFrom (l : List Byte) : ∀ a, Memory.wfFrom a (Memory.ofBytesFrom a l) = true := by
  induction l with
  | nil => intro a; rfl
  | cons b rest ih =>
    intro a
    unfold Memory.ofBytesFrom
    split
    · exact Memory.wfFrom_mono (by omega) (ih (a + 1))
    · rename_i hb
      exact Memory.wfFrom_cons.mpr ⟨Nat.le_refl a, hb, ih (a + 1)⟩

/-- A buffer made of bytes is in canonical form. -/
theorem Memory.wf_ofBytes (l : List Byte) : (Memory.ofBytes l).wf = true := Memory.wfFrom_ofBytesFrom l 0

theorem Memory.read_ofBytesFrom (l : List Byte) : ∀ a i, (Memory.ofBytesFrom a l).read (a + i) = l.getD i 0 := by
  induction l with
  | nil => intros; rfl
  | cons b rest ih =>
    intro a i
    cases i with
    | zero =>
      unfold Memory.ofBytesFrom
      split
      · rename_i hb
        rw [Memory.read_lt (Memory.wfFrom_ofBytesFrom rest (a + 1)) (by omega)]
        simp [hb]
      · simp [Memory.read]
    | succ i =>
      have e : a + (i + 1) = a + 1 + i := by omega
      unfold Memory.ofBytesFrom
      split
      · rw [e, ih (a + 1) i]; simp
      · have hk : a ≠ a + 1 + i := by omega
        rw [e]
        simp only [Memory.read, hk, if_false]
        rw [ih (a + 1) i]; simp

/-- The bytes of a buffer made of bytes. -/
theorem Memory.read_ofBytes (l : List Byte) (i : Nat) : (Memory.ofBytes l).read i = l.getD i 0 := by
  have := Memory.read_ofBytesFrom l 0 i
  simpa [Memory.ofBytes] using this

theorem Memory.below_ofBytesFrom (l : List Byte) : ∀ a n, a + l.length ≤ n → (Memory.ofBytesFrom a l).below n = true := by
  induction l with
  | nil => intros; rfl
  | cons b rest ih =>
    intro a n h
    simp only [List.length_cons] at h
    unfold Memory.ofBytesFrom
    split
    · exact ih (a + 1) n (by omega)
    · exact Memory.below_cons.mpr ⟨by omega, ih (a + 1) n (by omega)⟩

/-- A buffer made of at most `n` bytes lists nothing from `n` on. -/
theorem Memory.below_ofBytes {l : List Byte} {n : Nat} (h : l.length ≤ n) : (Memory.ofBytes l).below n = true :=
  Memory.below_ofBytesFrom l 0 n (by omega)

/-- Two buffers in canonical form that read alike are the same data. -/
theorem Memory.ext_of_wfFrom : ∀ {m m' : Memory} {lo : Nat}, Memory.wfFrom lo m = true → Memory.wfFrom lo m' = true →
    (∀ i, m.read i = m'.read i) → m = m' := by
  intro m
  induction m with
  | nil =>
    intro m' lo _ h' e
    cases m' with
    | nil => rfl
    | cons c rest =>
      obtain ⟨k, b⟩ := c
      have := e k
      simp [Memory.read] at this
      exact absurd this.symm (Memory.wfFrom_cons.mp h').2.1
  | cons c rest ih =>
    obtain ⟨k, b⟩ := c
    intro m' lo h h' e
    have hc := Memory.wfFrom_cons.mp h
    cases m' with
    | nil =>
      have := e k
      simp [Memory.read] at this
      exact absurd this hc.2.1
    | cons c' rest' =>
      obtain ⟨k', b'⟩ := c'
      have hc' := Memory.wfFrom_cons.mp h'
      have hk : k = k' := by
        rcases Nat.lt_trichotomy k k' with hlt | heq | hgt
        · have := e k
          rw [Memory.read_lt (m := (k', b') :: rest') (Memory.wfFrom_cons.mpr ⟨Nat.le_refl k', hc'.2⟩) hlt] at this
          simp [Memory.read] at this
          exact absurd this hc.2.1
        · exact heq
        · have := e k'
          rw [Memory.read_lt (m := (k, b) :: rest) (Memory.wfFrom_cons.mpr ⟨Nat.le_refl k, hc.2⟩) hgt] at this
          simp [Memory.read] at this
          exact absurd this.symm hc'.2.1
      subst hk
      have hb : b = b' := by simpa [Memory.read] using e k
      subst hb
      have : rest = rest' := ih hc.2.2 hc'.2.2 (fun i => by
        by_cases hi : k = i
        · subst hi
          rw [Memory.read_lt hc.2.2 (by omega), Memory.read_lt hc'.2.2 (by omega)]
        · simpa [Memory.read, hi] using e i)
      rw [this]

theorem Memory.ext {m m' : Memory} (h : m.wf = true) (h' : m'.wf = true) (e : ∀ i, m.read i = m'.read i) : m = m' :=
  Memory.ext_of_wfFrom h h' e

/-- The reset buffers are in canonical form. -/
theorem State.reset_buffers_wf :
    State.reset.secret.wf = true ∧ State.reset.key.wf = true ∧ State.reset.ikey.wf = true := ⟨rfl, rfl, rfl⟩

end Sys2Proof.Machine
end

