-- ==== Sys2Proof/Laws/State.lean ====
section
/-! SUPPORT. One lemma per field per named update of the state, each true by unfolding, for simp. -/

namespace Sys2Proof.Machine

open Sys2Proof

/-! ### setIe -/

@[simp] theorem State.setIe_params (b : Bool) (s : State) : (s.setIe b).params = s.params := rfl
@[simp] theorem State.setIe_ie (b : Bool) (s : State) : (s.setIe b).ie = b := rfl
@[simp] theorem State.setIe_phase (b : Bool) (s : State) : (s.setIe b).phase = s.phase := rfl
@[simp] theorem State.setIe_done (b : Bool) (s : State) : (s.setIe b).done = s.done := rfl
@[simp] theorem State.setIe_dropped (b : Bool) (s : State) : (s.setIe b).dropped = s.dropped := rfl
@[simp] theorem State.setIe_errcode (b : Bool) (s : State) : (s.setIe b).errcode = s.errcode := rfl
@[simp] theorem State.setIe_lastop (b : Bool) (s : State) : (s.setIe b).lastop = s.lastop := rfl
@[simp] theorem State.setIe_secretLen (b : Bool) (s : State) : (s.setIe b).secretLen = s.secretLen := rfl
@[simp] theorem State.setIe_secret (b : Bool) (s : State) : (s.setIe b).secret = s.secret := rfl
@[simp] theorem State.setIe_tslice (b : Bool) (s : State) : (s.setIe b).tslice = s.tslice := rfl
@[simp] theorem State.setIe_gen (b : Bool) (s : State) : (s.setIe b).gen = s.gen := rfl
@[simp] theorem State.setIe_keyLen (b : Bool) (s : State) : (s.setIe b).keyLen = s.keyLen := rfl
@[simp] theorem State.setIe_key (b : Bool) (s : State) : (s.setIe b).key = s.key := rfl
@[simp] theorem State.setIe_curOp (b : Bool) (s : State) : (s.setIe b).curOp = s.curOp := rfl
@[simp] theorem State.setIe_snap (b : Bool) (s : State) : (s.setIe b).snap = s.snap := rfl
@[simp] theorem State.setIe_ikey (b : Bool) (s : State) : (s.setIe b).ikey = s.ikey := rfl
@[simp] theorem State.setIe_timeS (b : Bool) (s : State) : (s.setIe b).timeS = s.timeS := rfl
@[simp] theorem State.setIe_busRdata (b : Bool) (s : State) : (s.setIe b).busRdata = s.busRdata := rfl
@[simp] theorem State.setIe_busErr (b : Bool) (s : State) : (s.setIe b).busErr = s.busErr := rfl
@[simp] theorem State.setIe_inputs (b : Bool) (s : State) : (s.setIe b).inputs = s.inputs := rfl
@[simp] theorem State.setIe_draws (b : Bool) (s : State) : (s.setIe b).draws = s.draws := rfl

/-! ### drop -/

@[simp] theorem State.drop_params (s : State) : s.drop.params = s.params := rfl
@[simp] theorem State.drop_ie (s : State) : s.drop.ie = s.ie := rfl
@[simp] theorem State.drop_phase (s : State) : s.drop.phase = s.phase := rfl
@[simp] theorem State.drop_done (s : State) : s.drop.done = s.done := rfl
@[simp] theorem State.drop_dropped (s : State) : s.drop.dropped = true := rfl
@[simp] theorem State.drop_errcode (s : State) : s.drop.errcode = s.errcode := rfl
@[simp] theorem State.drop_lastop (s : State) : s.drop.lastop = s.lastop := rfl
@[simp] theorem State.drop_secretLen (s : State) : s.drop.secretLen = s.secretLen := rfl
@[simp] theorem State.drop_secret (s : State) : s.drop.secret = s.secret := rfl
@[simp] theorem State.drop_tslice (s : State) : s.drop.tslice = s.tslice := rfl
@[simp] theorem State.drop_gen (s : State) : s.drop.gen = s.gen := rfl
@[simp] theorem State.drop_keyLen (s : State) : s.drop.keyLen = s.keyLen := rfl
@[simp] theorem State.drop_key (s : State) : s.drop.key = s.key := rfl
@[simp] theorem State.drop_curOp (s : State) : s.drop.curOp = s.curOp := rfl
@[simp] theorem State.drop_snap (s : State) : s.drop.snap = s.snap := rfl
@[simp] theorem State.drop_ikey (s : State) : s.drop.ikey = s.ikey := rfl
@[simp] theorem State.drop_timeS (s : State) : s.drop.timeS = s.timeS := rfl
@[simp] theorem State.drop_busRdata (s : State) : s.drop.busRdata = s.busRdata := rfl
@[simp] theorem State.drop_busErr (s : State) : s.drop.busErr = s.busErr := rfl
@[simp] theorem State.drop_inputs (s : State) : s.drop.inputs = s.inputs := rfl
@[simp] theorem State.drop_draws (s : State) : s.drop.draws = s.draws := rfl

/-! ### setSecretLen -/

@[simp] theorem State.setSecretLen_params (v : Word) (s : State) : (s.setSecretLen v).params = s.params := rfl
@[simp] theorem State.setSecretLen_ie (v : Word) (s : State) : (s.setSecretLen v).ie = s.ie := rfl
@[simp] theorem State.setSecretLen_phase (v : Word) (s : State) : (s.setSecretLen v).phase = s.phase := rfl
@[simp] theorem State.setSecretLen_done (v : Word) (s : State) : (s.setSecretLen v).done = s.done := rfl
@[simp] theorem State.setSecretLen_dropped (v : Word) (s : State) : (s.setSecretLen v).dropped = s.dropped := rfl
@[simp] theorem State.setSecretLen_errcode (v : Word) (s : State) : (s.setSecretLen v).errcode = s.errcode := rfl
@[simp] theorem State.setSecretLen_lastop (v : Word) (s : State) : (s.setSecretLen v).lastop = s.lastop := rfl
@[simp] theorem State.setSecretLen_secretLen (v : Word) (s : State) : (s.setSecretLen v).secretLen = v.setWidth 16 := rfl
@[simp] theorem State.setSecretLen_secret (v : Word) (s : State) : (s.setSecretLen v).secret = s.secret := rfl
@[simp] theorem State.setSecretLen_tslice (v : Word) (s : State) : (s.setSecretLen v).tslice = s.tslice := rfl
@[simp] theorem State.setSecretLen_gen (v : Word) (s : State) : (s.setSecretLen v).gen = s.gen := rfl
@[simp] theorem State.setSecretLen_keyLen (v : Word) (s : State) : (s.setSecretLen v).keyLen = s.keyLen := rfl
@[simp] theorem State.setSecretLen_key (v : Word) (s : State) : (s.setSecretLen v).key = s.key := rfl
@[simp] theorem State.setSecretLen_curOp (v : Word) (s : State) : (s.setSecretLen v).curOp = s.curOp := rfl
@[simp] theorem State.setSecretLen_snap (v : Word) (s : State) : (s.setSecretLen v).snap = s.snap := rfl
@[simp] theorem State.setSecretLen_ikey (v : Word) (s : State) : (s.setSecretLen v).ikey = s.ikey := rfl
@[simp] theorem State.setSecretLen_timeS (v : Word) (s : State) : (s.setSecretLen v).timeS = s.timeS := rfl
@[simp] theorem State.setSecretLen_busRdata (v : Word) (s : State) : (s.setSecretLen v).busRdata = s.busRdata := rfl
@[simp] theorem State.setSecretLen_busErr (v : Word) (s : State) : (s.setSecretLen v).busErr = s.busErr := rfl
@[simp] theorem State.setSecretLen_inputs (v : Word) (s : State) : (s.setSecretLen v).inputs = s.inputs := rfl
@[simp] theorem State.setSecretLen_draws (v : Word) (s : State) : (s.setSecretLen v).draws = s.draws := rfl

/-! ### setTslice -/

@[simp] theorem State.setTslice_params (v : Word) (s : State) : (s.setTslice v).params = s.params := rfl
@[simp] theorem State.setTslice_ie (v : Word) (s : State) : (s.setTslice v).ie = s.ie := rfl
@[simp] theorem State.setTslice_phase (v : Word) (s : State) : (s.setTslice v).phase = s.phase := rfl
@[simp] theorem State.setTslice_done (v : Word) (s : State) : (s.setTslice v).done = s.done := rfl
@[simp] theorem State.setTslice_dropped (v : Word) (s : State) : (s.setTslice v).dropped = s.dropped := rfl
@[simp] theorem State.setTslice_errcode (v : Word) (s : State) : (s.setTslice v).errcode = s.errcode := rfl
@[simp] theorem State.setTslice_lastop (v : Word) (s : State) : (s.setTslice v).lastop = s.lastop := rfl
@[simp] theorem State.setTslice_secretLen (v : Word) (s : State) : (s.setTslice v).secretLen = s.secretLen := rfl
@[simp] theorem State.setTslice_secret (v : Word) (s : State) : (s.setTslice v).secret = s.secret := rfl
@[simp] theorem State.setTslice_tslice (v : Word) (s : State) : (s.setTslice v).tslice = v := rfl
@[simp] theorem State.setTslice_gen (v : Word) (s : State) : (s.setTslice v).gen = s.gen := rfl
@[simp] theorem State.setTslice_keyLen (v : Word) (s : State) : (s.setTslice v).keyLen = s.keyLen := rfl
@[simp] theorem State.setTslice_key (v : Word) (s : State) : (s.setTslice v).key = s.key := rfl
@[simp] theorem State.setTslice_curOp (v : Word) (s : State) : (s.setTslice v).curOp = s.curOp := rfl
@[simp] theorem State.setTslice_snap (v : Word) (s : State) : (s.setTslice v).snap = s.snap := rfl
@[simp] theorem State.setTslice_ikey (v : Word) (s : State) : (s.setTslice v).ikey = s.ikey := rfl
@[simp] theorem State.setTslice_timeS (v : Word) (s : State) : (s.setTslice v).timeS = s.timeS := rfl
@[simp] theorem State.setTslice_busRdata (v : Word) (s : State) : (s.setTslice v).busRdata = s.busRdata := rfl
@[simp] theorem State.setTslice_busErr (v : Word) (s : State) : (s.setTslice v).busErr = s.busErr := rfl
@[simp] theorem State.setTslice_inputs (v : Word) (s : State) : (s.setTslice v).inputs = s.inputs := rfl
@[simp] theorem State.setTslice_draws (v : Word) (s : State) : (s.setTslice v).draws = s.draws := rfl

/-! ### start -/

@[simp] theorem State.start_params (op : Op) (s : State) : (s.start op).params = s.params := rfl
@[simp] theorem State.start_ie (op : Op) (s : State) : (s.start op).ie = s.ie := rfl
@[simp] theorem State.start_phase (op : Op) (s : State) : (s.start op).phase = .busy := rfl
@[simp] theorem State.start_done (op : Op) (s : State) : (s.start op).done = false := rfl
@[simp] theorem State.start_dropped (op : Op) (s : State) : (s.start op).dropped = s.dropped := rfl
@[simp] theorem State.start_errcode (op : Op) (s : State) : (s.start op).errcode = 0 := rfl
@[simp] theorem State.start_lastop (op : Op) (s : State) : (s.start op).lastop = op.code := rfl
@[simp] theorem State.start_secretLen (op : Op) (s : State) : (s.start op).secretLen = s.secretLen := rfl
@[simp] theorem State.start_secret (op : Op) (s : State) : (s.start op).secret = s.secret := rfl
@[simp] theorem State.start_tslice (op : Op) (s : State) : (s.start op).tslice = s.tslice := rfl
@[simp] theorem State.start_gen (op : Op) (s : State) : (s.start op).gen = s.gen := rfl
@[simp] theorem State.start_keyLen (op : Op) (s : State) : (s.start op).keyLen = s.keyLen := rfl
@[simp] theorem State.start_key (op : Op) (s : State) : (s.start op).key = s.key := rfl
@[simp] theorem State.start_curOp (op : Op) (s : State) : (s.start op).curOp = op := rfl
@[simp] theorem State.start_snap (op : Op) (s : State) : (s.start op).snap = s.takeSnap op := rfl
@[simp] theorem State.start_ikey (op : Op) (s : State) : (s.start op).ikey = s.ikey := rfl
@[simp] theorem State.start_timeS (op : Op) (s : State) : (s.start op).timeS = s.timeS := rfl
@[simp] theorem State.start_busRdata (op : Op) (s : State) : (s.start op).busRdata = s.busRdata := rfl
@[simp] theorem State.start_busErr (op : Op) (s : State) : (s.start op).busErr = s.busErr := rfl
@[simp] theorem State.start_inputs (op : Op) (s : State) : (s.start op).inputs = s.inputs := rfl
@[simp] theorem State.start_draws (op : Op) (s : State) : (s.start op).draws = s.draws := rfl

/-! ### report -/

@[simp] theorem State.report_params (code : BitVec 4) (s : State) : (s.report code).params = s.params := rfl
@[simp] theorem State.report_ie (code : BitVec 4) (s : State) : (s.report code).ie = s.ie := rfl
@[simp] theorem State.report_phase (code : BitVec 4) (s : State) : (s.report code).phase = .idle := rfl
@[simp] theorem State.report_done (code : BitVec 4) (s : State) : (s.report code).done = true := rfl
@[simp] theorem State.report_dropped (code : BitVec 4) (s : State) : (s.report code).dropped = s.dropped := rfl
@[simp] theorem State.report_errcode (code : BitVec 4) (s : State) : (s.report code).errcode = code := rfl
@[simp] theorem State.report_lastop (code : BitVec 4) (s : State) : (s.report code).lastop = s.lastop := rfl
@[simp] theorem State.report_secretLen (code : BitVec 4) (s : State) : (s.report code).secretLen = s.secretLen := rfl
@[simp] theorem State.report_secret (code : BitVec 4) (s : State) : (s.report code).secret = s.secret := rfl
@[simp] theorem State.report_tslice (code : BitVec 4) (s : State) : (s.report code).tslice = s.tslice := rfl
@[simp] theorem State.report_gen (code : BitVec 4) (s : State) : (s.report code).gen = s.gen := rfl
@[simp] theorem State.report_keyLen (code : BitVec 4) (s : State) : (s.report code).keyLen = s.keyLen := rfl
@[simp] theorem State.report_key (code : BitVec 4) (s : State) : (s.report code).key = s.key := rfl
@[simp] theorem State.report_curOp (code : BitVec 4) (s : State) : (s.report code).curOp = s.curOp := rfl
@[simp] theorem State.report_snap (code : BitVec 4) (s : State) : (s.report code).snap = s.snap := rfl
@[simp] theorem State.report_ikey (code : BitVec 4) (s : State) : (s.report code).ikey = s.ikey := rfl
@[simp] theorem State.report_timeS (code : BitVec 4) (s : State) : (s.report code).timeS = s.timeS := rfl
@[simp] theorem State.report_busRdata (code : BitVec 4) (s : State) : (s.report code).busRdata = s.busRdata := rfl
@[simp] theorem State.report_busErr (code : BitVec 4) (s : State) : (s.report code).busErr = s.busErr := rfl
@[simp] theorem State.report_inputs (code : BitVec 4) (s : State) : (s.report code).inputs = s.inputs := rfl
@[simp] theorem State.report_draws (code : BitVec 4) (s : State) : (s.report code).draws = s.draws := rfl

/-! ### acknowledge -/

@[simp] theorem State.acknowledge_params (w : Word) (s : State) : (s.acknowledge w).params = s.params := rfl
@[simp] theorem State.acknowledge_ie (w : Word) (s : State) : (s.acknowledge w).ie = s.ie := rfl
@[simp] theorem State.acknowledge_phase (w : Word) (s : State) : (s.acknowledge w).phase = s.phase := rfl
@[simp] theorem State.acknowledge_done (w : Word) (s : State) : (s.acknowledge w).done = (s.done && !w.getLsbD 1) := rfl
@[simp] theorem State.acknowledge_dropped (w : Word) (s : State) : (s.acknowledge w).dropped = (s.dropped && !w.getLsbD 2) := rfl
@[simp] theorem State.acknowledge_errcode (w : Word) (s : State) : (s.acknowledge w).errcode = s.errcode := rfl
@[simp] theorem State.acknowledge_lastop (w : Word) (s : State) : (s.acknowledge w).lastop = s.lastop := rfl
@[simp] theorem State.acknowledge_secretLen (w : Word) (s : State) : (s.acknowledge w).secretLen = s.secretLen := rfl
@[simp] theorem State.acknowledge_secret (w : Word) (s : State) : (s.acknowledge w).secret = s.secret := rfl
@[simp] theorem State.acknowledge_tslice (w : Word) (s : State) : (s.acknowledge w).tslice = s.tslice := rfl
@[simp] theorem State.acknowledge_gen (w : Word) (s : State) : (s.acknowledge w).gen = s.gen := rfl
@[simp] theorem State.acknowledge_keyLen (w : Word) (s : State) : (s.acknowledge w).keyLen = s.keyLen := rfl
@[simp] theorem State.acknowledge_key (w : Word) (s : State) : (s.acknowledge w).key = s.key := rfl
@[simp] theorem State.acknowledge_curOp (w : Word) (s : State) : (s.acknowledge w).curOp = s.curOp := rfl
@[simp] theorem State.acknowledge_snap (w : Word) (s : State) : (s.acknowledge w).snap = s.snap := rfl
@[simp] theorem State.acknowledge_ikey (w : Word) (s : State) : (s.acknowledge w).ikey = s.ikey := rfl
@[simp] theorem State.acknowledge_timeS (w : Word) (s : State) : (s.acknowledge w).timeS = s.timeS := rfl
@[simp] theorem State.acknowledge_busRdata (w : Word) (s : State) : (s.acknowledge w).busRdata = s.busRdata := rfl
@[simp] theorem State.acknowledge_busErr (w : Word) (s : State) : (s.acknowledge w).busErr = s.busErr := rfl
@[simp] theorem State.acknowledge_inputs (w : Word) (s : State) : (s.acknowledge w).inputs = s.inputs := rfl
@[simp] theorem State.acknowledge_draws (w : Word) (s : State) : (s.acknowledge w).draws = s.draws := rfl

/-! ### beginCycle -/

@[simp] theorem State.beginCycle_params (c : ClockCycle) (rest : List ClockCycle) (s : State) : (s.beginCycle c rest).params = s.params := rfl
@[simp] theorem State.beginCycle_ie (c : ClockCycle) (rest : List ClockCycle) (s : State) : (s.beginCycle c rest).ie = s.ie := rfl
@[simp] theorem State.beginCycle_phase (c : ClockCycle) (rest : List ClockCycle) (s : State) : (s.beginCycle c rest).phase = s.phase := rfl
@[simp] theorem State.beginCycle_done (c : ClockCycle) (rest : List ClockCycle) (s : State) : (s.beginCycle c rest).done = s.done := rfl
@[simp] theorem State.beginCycle_dropped (c : ClockCycle) (rest : List ClockCycle) (s : State) : (s.beginCycle c rest).dropped = s.dropped := rfl
@[simp] theorem State.beginCycle_errcode (c : ClockCycle) (rest : List ClockCycle) (s : State) : (s.beginCycle c rest).errcode = s.errcode := rfl
@[simp] theorem State.beginCycle_lastop (c : ClockCycle) (rest : List ClockCycle) (s : State) : (s.beginCycle c rest).lastop = s.lastop := rfl
@[simp] theorem State.beginCycle_secretLen (c : ClockCycle) (rest : List ClockCycle) (s : State) : (s.beginCycle c rest).secretLen = s.secretLen := rfl
@[simp] theorem State.beginCycle_secret (c : ClockCycle) (rest : List ClockCycle) (s : State) : (s.beginCycle c rest).secret = s.secret := rfl
@[simp] theorem State.beginCycle_tslice (c : ClockCycle) (rest : List ClockCycle) (s : State) : (s.beginCycle c rest).tslice = s.tslice := rfl
@[simp] theorem State.beginCycle_gen (c : ClockCycle) (rest : List ClockCycle) (s : State) : (s.beginCycle c rest).gen = s.gen := rfl
@[simp] theorem State.beginCycle_keyLen (c : ClockCycle) (rest : List ClockCycle) (s : State) : (s.beginCycle c rest).keyLen = s.keyLen := rfl
@[simp] theorem State.beginCycle_key (c : ClockCycle) (rest : List ClockCycle) (s : State) : (s.beginCycle c rest).key = s.key := rfl
@[simp] theorem State.beginCycle_curOp (c : ClockCycle) (rest : List ClockCycle) (s : State) : (s.beginCycle c rest).curOp = s.curOp := rfl
@[simp] theorem State.beginCycle_snap (c : ClockCycle) (rest : List ClockCycle) (s : State) : (s.beginCycle c rest).snap = s.snap := rfl
@[simp] theorem State.beginCycle_ikey (c : ClockCycle) (rest : List ClockCycle) (s : State) : (s.beginCycle c rest).ikey = s.ikey := rfl
@[simp] theorem State.beginCycle_timeS (c : ClockCycle) (rest : List ClockCycle) (s : State) : (s.beginCycle c rest).timeS = c.timeS := rfl
@[simp] theorem State.beginCycle_busRdata (c : ClockCycle) (rest : List ClockCycle) (s : State) : (s.beginCycle c rest).busRdata = none := rfl
@[simp] theorem State.beginCycle_busErr (c : ClockCycle) (rest : List ClockCycle) (s : State) : (s.beginCycle c rest).busErr = false := rfl
@[simp] theorem State.beginCycle_inputs (c : ClockCycle) (rest : List ClockCycle) (s : State) : (s.beginCycle c rest).inputs = rest := rfl
@[simp] theorem State.beginCycle_draws (c : ClockCycle) (rest : List ClockCycle) (s : State) : (s.beginCycle c rest).draws = s.draws := rfl

/-! ### answer -/

@[simp] theorem State.answer_params (v : Word) (s : State) : (s.answer v).params = s.params := rfl
@[simp] theorem State.answer_ie (v : Word) (s : State) : (s.answer v).ie = s.ie := rfl
@[simp] theorem State.answer_phase (v : Word) (s : State) : (s.answer v).phase = s.phase := rfl
@[simp] theorem State.answer_done (v : Word) (s : State) : (s.answer v).done = s.done := rfl
@[simp] theorem State.answer_dropped (v : Word) (s : State) : (s.answer v).dropped = s.dropped := rfl
@[simp] theorem State.answer_errcode (v : Word) (s : State) : (s.answer v).errcode = s.errcode := rfl
@[simp] theorem State.answer_lastop (v : Word) (s : State) : (s.answer v).lastop = s.lastop := rfl
@[simp] theorem State.answer_secretLen (v : Word) (s : State) : (s.answer v).secretLen = s.secretLen := rfl
@[simp] theorem State.answer_secret (v : Word) (s : State) : (s.answer v).secret = s.secret := rfl
@[simp] theorem State.answer_tslice (v : Word) (s : State) : (s.answer v).tslice = s.tslice := rfl
@[simp] theorem State.answer_gen (v : Word) (s : State) : (s.answer v).gen = s.gen := rfl
@[simp] theorem State.answer_keyLen (v : Word) (s : State) : (s.answer v).keyLen = s.keyLen := rfl
@[simp] theorem State.answer_key (v : Word) (s : State) : (s.answer v).key = s.key := rfl
@[simp] theorem State.answer_curOp (v : Word) (s : State) : (s.answer v).curOp = s.curOp := rfl
@[simp] theorem State.answer_snap (v : Word) (s : State) : (s.answer v).snap = s.snap := rfl
@[simp] theorem State.answer_ikey (v : Word) (s : State) : (s.answer v).ikey = s.ikey := rfl
@[simp] theorem State.answer_timeS (v : Word) (s : State) : (s.answer v).timeS = s.timeS := rfl
@[simp] theorem State.answer_busRdata (v : Word) (s : State) : (s.answer v).busRdata = some v := rfl
@[simp] theorem State.answer_busErr (v : Word) (s : State) : (s.answer v).busErr = s.busErr := rfl
@[simp] theorem State.answer_inputs (v : Word) (s : State) : (s.answer v).inputs = s.inputs := rfl
@[simp] theorem State.answer_draws (v : Word) (s : State) : (s.answer v).draws = s.draws := rfl

/-! ### busError -/

@[simp] theorem State.busError_params (s : State) : s.busError.params = s.params := rfl
@[simp] theorem State.busError_ie (s : State) : s.busError.ie = s.ie := rfl
@[simp] theorem State.busError_phase (s : State) : s.busError.phase = s.phase := rfl
@[simp] theorem State.busError_done (s : State) : s.busError.done = s.done := rfl
@[simp] theorem State.busError_dropped (s : State) : s.busError.dropped = s.dropped := rfl
@[simp] theorem State.busError_errcode (s : State) : s.busError.errcode = s.errcode := rfl
@[simp] theorem State.busError_lastop (s : State) : s.busError.lastop = s.lastop := rfl
@[simp] theorem State.busError_secretLen (s : State) : s.busError.secretLen = s.secretLen := rfl
@[simp] theorem State.busError_secret (s : State) : s.busError.secret = s.secret := rfl
@[simp] theorem State.busError_tslice (s : State) : s.busError.tslice = s.tslice := rfl
@[simp] theorem State.busError_gen (s : State) : s.busError.gen = s.gen := rfl
@[simp] theorem State.busError_keyLen (s : State) : s.busError.keyLen = s.keyLen := rfl
@[simp] theorem State.busError_key (s : State) : s.busError.key = s.key := rfl
@[simp] theorem State.busError_curOp (s : State) : s.busError.curOp = s.curOp := rfl
@[simp] theorem State.busError_snap (s : State) : s.busError.snap = s.snap := rfl
@[simp] theorem State.busError_ikey (s : State) : s.busError.ikey = s.ikey := rfl
@[simp] theorem State.busError_timeS (s : State) : s.busError.timeS = s.timeS := rfl
@[simp] theorem State.busError_busRdata (s : State) : s.busError.busRdata = s.busRdata := rfl
@[simp] theorem State.busError_busErr (s : State) : s.busError.busErr = true := rfl
@[simp] theorem State.busError_inputs (s : State) : s.busError.inputs = s.inputs := rfl
@[simp] theorem State.busError_draws (s : State) : s.busError.draws = s.draws := rfl

/-! ### answerFree -/

@[simp] theorem State.answerFree_params (s : State) : s.answerFree.params = s.params := rfl
@[simp] theorem State.answerFree_ie (s : State) : s.answerFree.ie = s.ie := rfl
@[simp] theorem State.answerFree_phase (s : State) : s.answerFree.phase = s.phase := rfl
@[simp] theorem State.answerFree_done (s : State) : s.answerFree.done = s.done := rfl
@[simp] theorem State.answerFree_dropped (s : State) : s.answerFree.dropped = s.dropped := rfl
@[simp] theorem State.answerFree_errcode (s : State) : s.answerFree.errcode = s.errcode := rfl
@[simp] theorem State.answerFree_lastop (s : State) : s.answerFree.lastop = s.lastop := rfl
@[simp] theorem State.answerFree_secretLen (s : State) : s.answerFree.secretLen = s.secretLen := rfl
@[simp] theorem State.answerFree_secret (s : State) : s.answerFree.secret = s.secret := rfl
@[simp] theorem State.answerFree_tslice (s : State) : s.answerFree.tslice = s.tslice := rfl
@[simp] theorem State.answerFree_gen (s : State) : s.answerFree.gen = s.gen := rfl
@[simp] theorem State.answerFree_keyLen (s : State) : s.answerFree.keyLen = s.keyLen := rfl
@[simp] theorem State.answerFree_key (s : State) : s.answerFree.key = s.key := rfl
@[simp] theorem State.answerFree_curOp (s : State) : s.answerFree.curOp = s.curOp := rfl
@[simp] theorem State.answerFree_snap (s : State) : s.answerFree.snap = s.snap := rfl
@[simp] theorem State.answerFree_ikey (s : State) : s.answerFree.ikey = s.ikey := rfl
@[simp] theorem State.answerFree_timeS (s : State) : s.answerFree.timeS = s.timeS := rfl
@[simp] theorem State.answerFree_busRdata (s : State) : s.answerFree.busRdata = some (Config.freeWord s.draws) := rfl
@[simp] theorem State.answerFree_busErr (s : State) : s.answerFree.busErr = s.busErr := rfl
@[simp] theorem State.answerFree_inputs (s : State) : s.answerFree.inputs = s.inputs := rfl
@[simp] theorem State.answerFree_draws (s : State) : s.answerFree.draws = s.draws + 1 := rfl

/-! ### resetBlock -/

@[simp] theorem State.resetBlock_params (s : State) : s.resetBlock.params = s.params := rfl
@[simp] theorem State.resetBlock_ie (s : State) : s.resetBlock.ie = State.reset.ie := rfl
@[simp] theorem State.resetBlock_phase (s : State) : s.resetBlock.phase = State.reset.phase := rfl
@[simp] theorem State.resetBlock_done (s : State) : s.resetBlock.done = State.reset.done := rfl
@[simp] theorem State.resetBlock_dropped (s : State) : s.resetBlock.dropped = State.reset.dropped := rfl
@[simp] theorem State.resetBlock_errcode (s : State) : s.resetBlock.errcode = State.reset.errcode := rfl
@[simp] theorem State.resetBlock_lastop (s : State) : s.resetBlock.lastop = State.reset.lastop := rfl
@[simp] theorem State.resetBlock_secretLen (s : State) : s.resetBlock.secretLen = State.reset.secretLen := rfl
@[simp] theorem State.resetBlock_secret (s : State) : s.resetBlock.secret = State.reset.secret := rfl
@[simp] theorem State.resetBlock_tslice (s : State) : s.resetBlock.tslice = State.reset.tslice := rfl
@[simp] theorem State.resetBlock_gen (s : State) : s.resetBlock.gen = State.reset.gen := rfl
@[simp] theorem State.resetBlock_keyLen (s : State) : s.resetBlock.keyLen = State.reset.keyLen := rfl
@[simp] theorem State.resetBlock_key (s : State) : s.resetBlock.key = State.reset.key := rfl
@[simp] theorem State.resetBlock_curOp (s : State) : s.resetBlock.curOp = State.reset.curOp := rfl
@[simp] theorem State.resetBlock_snap (s : State) : s.resetBlock.snap = State.reset.snap := rfl
@[simp] theorem State.resetBlock_ikey (s : State) : s.resetBlock.ikey = State.reset.ikey := rfl
@[simp] theorem State.resetBlock_timeS (s : State) : s.resetBlock.timeS = s.timeS := rfl
@[simp] theorem State.resetBlock_busRdata (s : State) : s.resetBlock.busRdata = s.busRdata := rfl
@[simp] theorem State.resetBlock_busErr (s : State) : s.resetBlock.busErr = s.busErr := rfl
@[simp] theorem State.resetBlock_inputs (s : State) : s.resetBlock.inputs = s.inputs := rfl
@[simp] theorem State.resetBlock_draws (s : State) : s.resetBlock.draws = s.draws := rfl

/-! ### reset -/

@[simp] theorem State.reset_params : State.reset.params = Params.default := rfl
@[simp] theorem State.reset_ie : State.reset.ie = false := rfl
@[simp] theorem State.reset_phase : State.reset.phase = .idle := rfl
@[simp] theorem State.reset_done : State.reset.done = false := rfl
@[simp] theorem State.reset_dropped : State.reset.dropped = false := rfl
@[simp] theorem State.reset_errcode : State.reset.errcode = 0 := rfl
@[simp] theorem State.reset_lastop : State.reset.lastop = 0 := rfl
@[simp] theorem State.reset_secretLen : State.reset.secretLen = 0 := rfl
@[simp] theorem State.reset_secret : State.reset.secret = [] := rfl
@[simp] theorem State.reset_tslice : State.reset.tslice = 0 := rfl
@[simp] theorem State.reset_gen : State.reset.gen = GenRegs.zero := rfl
@[simp] theorem State.reset_keyLen : State.reset.keyLen = 0 := rfl
@[simp] theorem State.reset_key : State.reset.key = [] := rfl
@[simp] theorem State.reset_curOp : State.reset.curOp = .decode := rfl
@[simp] theorem State.reset_ikey : State.reset.ikey = [] := rfl
@[simp] theorem State.reset_timeS : State.reset.timeS = 0 := rfl
@[simp] theorem State.reset_busRdata : State.reset.busRdata = none := rfl
@[simp] theorem State.reset_busErr : State.reset.busErr = false := rfl
@[simp] theorem State.reset_inputs : State.reset.inputs = [] := rfl
@[simp] theorem State.reset_draws : State.reset.draws = 0 := rfl

/-! ### zeroIkey -/

@[simp] theorem State.zeroIkey_params (s : State) : s.zeroIkey.params = s.params := rfl
@[simp] theorem State.zeroIkey_ie (s : State) : s.zeroIkey.ie = s.ie := rfl
@[simp] theorem State.zeroIkey_phase (s : State) : s.zeroIkey.phase = s.phase := rfl
@[simp] theorem State.zeroIkey_done (s : State) : s.zeroIkey.done = s.done := rfl
@[simp] theorem State.zeroIkey_dropped (s : State) : s.zeroIkey.dropped = s.dropped := rfl
@[simp] theorem State.zeroIkey_errcode (s : State) : s.zeroIkey.errcode = s.errcode := rfl
@[simp] theorem State.zeroIkey_lastop (s : State) : s.zeroIkey.lastop = s.lastop := rfl
@[simp] theorem State.zeroIkey_secretLen (s : State) : s.zeroIkey.secretLen = s.secretLen := rfl
@[simp] theorem State.zeroIkey_secret (s : State) : s.zeroIkey.secret = s.secret := rfl
@[simp] theorem State.zeroIkey_tslice (s : State) : s.zeroIkey.tslice = s.tslice := rfl
@[simp] theorem State.zeroIkey_gen (s : State) : s.zeroIkey.gen = s.gen := rfl
@[simp] theorem State.zeroIkey_keyLen (s : State) : s.zeroIkey.keyLen = s.keyLen := rfl
@[simp] theorem State.zeroIkey_key (s : State) : s.zeroIkey.key = s.key := rfl
@[simp] theorem State.zeroIkey_curOp (s : State) : s.zeroIkey.curOp = s.curOp := rfl
@[simp] theorem State.zeroIkey_snap (s : State) : s.zeroIkey.snap = s.snap := rfl
@[simp] theorem State.zeroIkey_ikey (s : State) : s.zeroIkey.ikey = [] := rfl
@[simp] theorem State.zeroIkey_timeS (s : State) : s.zeroIkey.timeS = s.timeS := rfl
@[simp] theorem State.zeroIkey_busRdata (s : State) : s.zeroIkey.busRdata = s.busRdata := rfl
@[simp] theorem State.zeroIkey_busErr (s : State) : s.zeroIkey.busErr = s.busErr := rfl
@[simp] theorem State.zeroIkey_inputs (s : State) : s.zeroIkey.inputs = s.inputs := rfl
@[simp] theorem State.zeroIkey_draws (s : State) : s.zeroIkey.draws = s.draws := rfl

end Sys2Proof.Machine
end

