-- ==== Sys2Proof/Laws/Ops.lean ====
section
/-! SUPPORT. What each shared operation can do, said once: the SECRET writes, the busy guard, the commands, the accesses,
the engine and a whole cycle. -/

namespace Sys2Proof.Machine

open Sys2Proof

/-! ### SECRET writes -/

/-- A SECRET byte write changes nothing but the SECRET buffer. -/
theorem State.setSecretByte_eq (i : Nat) (v : Byte) (s : State) :
    s.setSecretByte i v = { s with secret := if i < s.params.secretMax then s.secret.write i v else s.secret } := by
  unfold State.setSecretByte
  split <;> rfl

/-- A SECRET word write changes nothing but the SECRET buffer. -/
theorem State.setSecretWord_eq (j : Nat) (v : Word) (s : State) :
    ∃ m, s.setSecretWord j v = { s with secret := m } ∧
      (s.secret.wf = true → m.wf = true) ∧
      (s.secret.below s.params.secretMax = true → m.below s.params.secretMax = true) := by
  have step1 : ∀ (n i : Nat) (b : Byte) (m : Memory),
      (m.wf = true → (if i < n then m.write i b else m).wf = true) ∧
      (m.below n = true → (if i < n then m.write i b else m).below n = true) := by
    intro n i b m
    split
    · exact ⟨Memory.wf_write i b, fun h => Memory.below_write i b h ‹_›⟩
    · exact ⟨id, id⟩
  unfold State.setSecretWord
  simp only [State.setSecretByte_eq]
  exact ⟨_, rfl,
    fun h => (step1 _ _ _ _).1 ((step1 _ _ _ _).1 ((step1 _ _ _ _).1 ((step1 _ _ _ _).1 h))),
    fun h => (step1 _ _ _ _).2 ((step1 _ _ _ _).2 ((step1 _ _ _ _).2 ((step1 _ _ _ _).2 h)))⟩

/-- A byte of SECRET after a byte write. -/
theorem State.secretByte_setSecretByte {s : State} (h : s.secret.wf = true) (i : Nat) (v : Byte) (a : Nat) :
    (s.setSecretByte i v).secretByte a = if a = i ∧ i < s.params.secretMax then v else s.secretByte a := by
  rw [State.setSecretByte_eq]
  unfold State.secretByte
  by_cases hi : i < s.params.secretMax
  · by_cases ha : a < s.params.secretMax
    · simp [hi, ha, Memory.read_write i a v h]
    · have : a ≠ i := by omega
      simp [ha, this]
  · simp [hi]

theorem State.setSecretByte_wf {s : State} (h : s.secret.wf = true) (i : Nat) (v : Byte) :
    (s.setSecretByte i v).secret.wf = true := by
  rw [State.setSecretByte_eq]
  dsimp only
  split
  · exact Memory.wf_write i v h
  · exact h

theorem State.setSecretByte_params (i : Nat) (v : Byte) (s : State) : (s.setSecretByte i v).params = s.params := by
  rw [State.setSecretByte_eq]

/-! ### The busy guard -/

@[simp] theorem State.unlessBusy_idle {s : State} (f : State → State) (h : s.phase = .idle) : s.unlessBusy f = f s := by
  simp [State.unlessBusy, h]

@[simp] theorem State.unlessBusy_busy {s : State} (f : State → State) (h : s.phase = .busy) : s.unlessBusy f = s.drop := by
  simp [State.unlessBusy, h]

/-- A guarded write either acts on an idle block or is dropped by a busy one. -/
theorem State.unlessBusy_cases (f : State → State) (s : State) :
    (s.phase = .idle ∧ s.unlessBusy f = f s) ∨ (s.phase = .busy ∧ s.unlessBusy f = s.drop) := by
  cases h : s.phase with
  | idle => exact .inl ⟨rfl, State.unlessBusy_idle f h⟩
  | busy => exact .inr ⟨rfl, State.unlessBusy_busy f h⟩

/-! ### Outcomes -/

theorem onNext_next (s : State) (f : State → State) : onNext (.next s) f = .next (f s) := rfl

/-- The next state of `onNext` comes from a next state. -/
theorem onNext_eq_next {o : Host.Outcome State Fault Refusal} {f : State → State} {t : State} (h : onNext o f = .next t) :
    ∃ u, o = .next u ∧ t = f u := by
  cases o with
  | next u => exact ⟨u, rfl, by simpa [onNext] using h.symm⟩
  | fault r => cases h
  | refused r => cases h

/-! ### Commands -/

/-- Everything a command can do: NOP stores IE; DECODE and GENERATE start when IDLE and are dropped when BUSY. -/
theorem exec_cases {i : Instr} {s t : State} (h : exec i s = .next t) :
    (∃ ie, i = .nop ie ∧ t = s.setIe ie) ∨
    (∃ ie op, (i = .decode ie ∧ op = .decode ∨ i = .generate ie ∧ op = .generate) ∧ s.phase = .idle ∧
      t = (s.setIe ie).start op) ∨
    (∃ ie, (i = .decode ie ∨ i = .generate ie) ∧ s.phase = .busy ∧ t = (s.setIe ie).drop) := by
  cases i with
  | nop ie => exact .inl ⟨ie, rfl, by simpa [exec, execNop] using h.symm⟩
  | decode ie =>
    have e : t = issue ie (State.start .decode) s := by simpa [exec, execDecode] using h.symm
    rcases State.unlessBusy_cases (State.start .decode) (s.setIe ie) with ⟨hp, hs⟩ | ⟨hp, hs⟩
    · exact .inr (.inl ⟨ie, .decode, .inl ⟨rfl, rfl⟩, by simpa using hp, by rw [e]; exact hs⟩)
    · exact .inr (.inr ⟨ie, .inl rfl, by simpa using hp, by rw [e]; exact hs⟩)
  | generate ie =>
    have e : t = issue ie (State.start .generate) s := by simpa [exec, execGenerate] using h.symm
    rcases State.unlessBusy_cases (State.start .generate) (s.setIe ie) with ⟨hp, hs⟩ | ⟨hp, hs⟩
    · exact .inr (.inl ⟨ie, .generate, .inr ⟨rfl, rfl⟩, by simpa using hp, by rw [e]; exact hs⟩)
    · exact .inr (.inr ⟨ie, .inr rfl, by simpa using hp, by rw [e]; exact hs⟩)

/-- Everything a rejection can do. -/
theorem rejectReserved_cases (op : BitVec 4) (ie : Bool) (s : State) :
    (s.phase = .idle ∧
      rejectReserved op ie s = State.report Err.illegalCommand.code { s.setIe ie with lastop := op }) ∨
    (s.phase = .busy ∧ rejectReserved op ie s = (s.setIe ie).drop) := by
  rcases State.unlessBusy_cases (fun t => State.report Err.illegalCommand.code { t with lastop := op }) (s.setIe ie) with
    ⟨hp, hs⟩ | ⟨hp, hs⟩
  · exact .inl ⟨by simpa using hp, hs⟩
  · exact .inr ⟨by simpa using hp, hs⟩

/-- Everything a CTRL write can do. -/
theorem ctrlWrite_cases {w : Word} {s t : State} (h : ctrlWrite w s = .next t) :
    (∃ i, decodeWord w = .ok i ∧ exec i s = .next t) ∨
    (∃ op ie, decodeWord w = .error (.reservedOp op ie) ∧ t = rejectReserved op ie s) := by
  unfold ctrlWrite at h
  split at h
  · exact .inl ⟨_, ‹_›, h⟩
  · exact .inr ⟨_, _, ‹_›, by simpa using h.symm⟩

/-! ### Accesses -/

/-- Everything a bus write can do. -/
theorem memWrite_cases {off : BitVec 10} {v : Word} {s t : State} (h : memWrite off v s = .next t) :
    (off.toNat % 4 ≠ 0 ∧ t = s.busError) ∨
    (off.toNat % 4 = 0 ∧ locate off = .ctrl ∧ ctrlWrite v s = .next t) ∨
    (off.toNat % 4 = 0 ∧ locate off ≠ .ctrl ∧ t = plainWrite (locate off) v s) := by
  unfold memWrite at h
  split at h
  · exact .inl ⟨‹_›, by simpa using h.symm⟩
  · rename_i ha
    simp only [ne_eq, Decidable.not_not] at ha
    split at h
    · exact .inr (.inl ⟨ha, ‹_›, h⟩)
    · exact .inr (.inr ⟨ha, ‹_›, by simpa using h.symm⟩)

/-- Everything a write to a place other than CTRL can do: an acknowledgement, an input stored by an idle block, a drop, or
nothing. -/
theorem plainWrite_cases (l : Loc) (v : Word) (s : State) :
    (l = .status ∧ plainWrite l v s = s.acknowledge v) ∨
    (s.phase = .idle ∧ (l = .secretLen ∧ plainWrite l v s = s.setSecretLen v ∨
      l = .tslice ∧ plainWrite l v s = s.setTslice v ∨
      ∃ j, l = .secretWord j ∧ plainWrite l v s = s.setSecretWord j v)) ∨
    (s.phase = .busy ∧ (l = .secretLen ∨ l = .tslice ∨ ∃ j, l = .secretWord j) ∧ plainWrite l v s = s.drop) ∨
    plainWrite l v s = s := by
  cases l with
  | status => exact .inl ⟨rfl, rfl⟩
  | secretLen =>
    rcases State.unlessBusy_cases (State.setSecretLen v) s with ⟨hp, hs⟩ | ⟨hp, hs⟩
    · exact .inr (.inl ⟨hp, .inl ⟨rfl, hs⟩⟩)
    · exact .inr (.inr (.inl ⟨hp, .inl rfl, hs⟩))
  | tslice =>
    rcases State.unlessBusy_cases (State.setTslice v) s with ⟨hp, hs⟩ | ⟨hp, hs⟩
    · exact .inr (.inl ⟨hp, .inr (.inl ⟨rfl, hs⟩)⟩)
    · exact .inr (.inr (.inl ⟨hp, .inr (.inl rfl), hs⟩))
  | secretWord j =>
    rcases State.unlessBusy_cases (State.setSecretWord j v) s with ⟨hp, hs⟩ | ⟨hp, hs⟩
    · exact .inr (.inl ⟨hp, .inr (.inr ⟨j, rfl, hs⟩)⟩)
    · exact .inr (.inr (.inl ⟨hp, .inr (.inr ⟨j, rfl⟩), hs⟩))
  | id => exact .inr (.inr (.inr rfl))
  | param => exact .inr (.inr (.inr rfl))
  | ctrl => exact .inr (.inr (.inr rfl))
  | tsUsed => exact .inr (.inr (.inr rfl))
  | keyLen => exact .inr (.inr (.inr rfl))
  | trunc => exact .inr (.inr (.inr rfl))
  | code => exact .inr (.inr (.inr rfl))
  | codeStr0 => exact .inr (.inr (.inr rfl))
  | codeStr1 => exact .inr (.inr (.inr rfl))
  | mac0 => exact .inr (.inr (.inr rfl))
  | mac1 => exact .inr (.inr (.inr rfl))
  | mac2 => exact .inr (.inr (.inr rfl))
  | mac3 => exact .inr (.inr (.inr rfl))
  | mac4 => exact .inr (.inr (.inr rfl))
  | keyWord j => exact .inr (.inr (.inr rfl))
  | reserved => exact .inr (.inr (.inr rfl))

/-- Everything a bus read can do. -/
theorem memRead_cases (off : BitVec 10) (s : State) :
    (off.toNat % 4 ≠ 0 ∧ memRead off s = (s.answer 0).busError) ∨
    (off.toNat % 4 = 0 ∧ s.phase = .busy ∧ (locate off).isResult = true ∧ memRead off s = s.answerFree) ∨
    (off.toNat % 4 = 0 ∧ (s.phase = .idle ∨ (locate off).isResult = false) ∧
      memRead off s = s.answer (s.readLoc (locate off))) := by
  by_cases ha : off.toNat % 4 = 0
  · cases hp : s.phase with
    | idle => exact .inr (.inr ⟨ha, .inl rfl, by simp [memRead, ha, State.busy, hp]⟩)
    | busy =>
      cases hr : (locate off).isResult with
      | true => exact .inr (.inl ⟨ha, rfl, rfl, by simp [memRead, ha, State.busy, hp, hr]⟩)
      | false => exact .inr (.inr ⟨ha, .inr rfl, by simp [memRead, ha, State.busy, hp, hr]⟩)
  · exact .inl ⟨ha, by simp [memRead, ha]⟩

/-- Everything the access of a cycle can do. -/
theorem access_cases {c : ClockCycle} {s t : State} (h : access c s = .next t) :
    (c.sel = false ∧ t = s) ∨
    (c.sel = true ∧ c.write = true ∧ memWrite c.addr c.wdata s = .next t) ∨
    (c.sel = true ∧ c.write = false ∧ t = memRead c.addr s) := by
  unfold access at h
  cases hs : c.sel with
  | false => exact .inl ⟨rfl, by simpa [hs] using h.symm⟩
  | true =>
    cases hw : c.write with
    | true => exact .inr (.inl ⟨rfl, rfl, by simpa [hs, hw] using h⟩)
    | false => exact .inr (.inr ⟨rfl, rfl, by simpa [hs, hw] using h.symm⟩)

/-! ### The engine -/

/-- Everything the engine can do in a cycle. -/
theorem State.engine_cases (before : Phase) (finish : Bool) (s : State) :
    (before = .idle ∧ s.engine before finish = s) ∨
    (before = .busy ∧ finish = true ∧ s.engine before finish = s.complete) ∨
    (before = .busy ∧ finish = false ∧ s.engine before finish = s) := by
  cases before with
  | idle => exact .inl ⟨rfl, rfl⟩
  | busy =>
    cases finish with
    | true => exact .inr (.inl ⟨rfl, rfl, rfl⟩)
    | false => exact .inr (.inr ⟨rfl, rfl, rfl⟩)

/-- Loading ikey changes nothing else. -/
theorem State.loadIkey_eq (s : State) : s.loadIkey = { s with ikey := s.loadIkey.ikey } := by
  unfold State.loadIkey
  split <;> rfl

/-- What is written over a loaded ikey and then zeroed is what is written over the state itself: no key is left. -/
@[simp] theorem State.zeroIkey_loadIkey (s : State) (g : GenRegs) :
    State.zeroIkey { s.loadIkey with gen := g } = { s with gen := g, ikey := [] } := by
  rw [State.loadIkey_eq]
  rfl

/-- Everything a completion can do. -/
theorem State.complete_cases (s : State) :
    (s.curOp = .decode ∧ ∃ k, decodeSnap s.params s.snap = .ok k ∧
      s.complete = State.report 0
        { s with keyLen := BitVec.ofNat 16 k.length, key := Memory.ofBytes (k.take (keyMax s.params)) }) ∨
    (s.curOp = .decode ∧ ∃ e, decodeSnap s.params s.snap = .error e ∧
      s.complete = State.report e.code { s with keyLen := 0, key := [] }) ∨
    (s.curOp = .generate ∧ ∃ k, decodeSnap s.params s.snap = .ok k ∧
      s.complete = State.report 0
        { s with gen := genRegsOf (resolveSlice s.snap) (hmacSha1 k (counterBytes (resolveSlice s.snap))), ikey := [] }) ∨
    (s.curOp = .generate ∧ ∃ e, decodeSnap s.params s.snap = .error e ∧
      s.complete = State.report e.code { s with gen := GenRegs.zero, ikey := [] }) := by
  cases hop : s.curOp with
  | decode =>
    cases hd : decodeSnap s.params s.snap with
    | ok k => exact .inl ⟨rfl, k, rfl, by simp [State.complete, hop, State.completeDecode, hd]⟩
    | error e => exact .inr (.inl ⟨rfl, e, rfl, by simp [State.complete, hop, State.completeDecode, hd]⟩)
  | generate =>
    cases hd : decodeSnap s.params s.snap with
    | ok k =>
      exact .inr (.inr (.inl ⟨rfl, k, rfl, by simp [State.complete, hop, State.completeGenerate, generateSnap, hd]⟩))
    | error e =>
      exact .inr (.inr (.inr ⟨rfl, e, rfl, by simp [State.complete, hop, State.completeGenerate, generateSnap, hd]⟩))

/-! ### Cycles and steps -/

/-- Everything a reset cycle can do. -/
theorem resetCycle_cases (c : ClockCycle) (s : State) :
    (c.sel = true ∧ c.write = false ∧ resetCycle c s = s.resetBlock.answer 0) ∨
    ((c.sel = false ∨ c.write = true) ∧ resetCycle c s = s.resetBlock) := by
  unfold resetCycle
  cases c.sel <;> cases c.write <;> simp

/-- Everything a step can do: a reset cycle, or the access of a cycle and then the engine. -/
theorem step_cases {s t : State} (h : step s = .next t) :
    ∃ c rest, Safety.nextCycle s = (c, rest) ∧
      ((c.rstN = false ∧ t = resetCycle c (s.beginCycle c rest)) ∨
       (c.rstN = true ∧ ∃ u, access c (s.beginCycle c rest) = .next u ∧ t = u.engine s.phase c.finish)) := by
  have key : ∀ c rest, runCycle c rest s = .next t →
      ((c.rstN = false ∧ t = resetCycle c (s.beginCycle c rest)) ∨
       (c.rstN = true ∧ ∃ u, access c (s.beginCycle c rest) = .next u ∧ t = u.engine s.phase c.finish)) := by
    intro c rest hr
    unfold runCycle at hr
    cases hc : c.rstN with
    | true => exact .inr ⟨rfl, onNext_eq_next (by simpa [hc] using hr)⟩
    | false => exact .inl ⟨rfl, by simpa [hc] using hr.symm⟩
  unfold step at h
  cases hi : s.inputs with
  | nil => exact ⟨quietCycle s, [], by simp [Safety.nextCycle, hi], key _ _ (by simpa [hi] using h)⟩
  | cons c rest => exact ⟨c, rest, by simp [Safety.nextCycle, hi], key _ _ (by simpa [hi] using h)⟩

end Sys2Proof.Machine
end

