-- ==== Sys2Proof/Laws/Decode.lean ====
section
/-! SUPPORT. The decoder and the CTRL write in the arithmetic of the word's fields: OP as a number. -/

namespace Sys2Proof

/-- The OP field as a number. -/
theorem toNat_opField (w : Word) : (opField w).toNat = w.toNat % 16 := by simp [opField]

/-- Masking with 0xF keeps the number's remainder mod 16. -/
theorem toNat_and_op (w : Word) : (w &&& 0x0000000F).toNat = w.toNat % 16 := by
  have h : (0x0000000F : Word).toNat = 2 ^ 4 - 1 := rfl
  rw [BitVec.toNat_and, h, Nat.and_two_pow_sub_one_eq_mod]

theorem and_op_eq_iff (w : Word) (k : Nat) (hk : k < 16) : w &&& 0x0000000F = BitVec.ofNat 32 k ↔ w.toNat % 16 = k := by
  rw [← BitVec.toNat_inj, toNat_and_op, BitVec.toNat_ofNat]
  constructor <;> intro h <;> omega

/-- The decoder by the OP number (R81). -/
theorem decodeWord_eq (w : Word) :
    decodeWord w =
      if w.toNat % 16 = 0 then .ok (.nop (w.getLsbD 8))
      else if w.toNat % 16 = 1 then .ok (.decode (w.getLsbD 8))
      else if w.toNat % 16 = 2 then .ok (.generate (w.getLsbD 8))
      else .error (.reservedOp (opField w) (w.getLsbD 8)) := by
  have h0 := and_op_eq_iff w 0 (by omega)
  have h1 := and_op_eq_iff w 1 (by omega)
  have h2 := and_op_eq_iff w 2 (by omega)
  unfold decodeWord ieField
  split
  · rw [if_pos (h0.mp ‹_›)]
  · rename_i n0
    rw [if_neg (fun h => n0 (h0.mpr h))]
    split
    · rw [if_pos (h1.mp ‹_›)]
    · rename_i n1
      rw [if_neg (fun h => n1 (h1.mpr h))]
      split
      · rw [if_pos (h2.mp ‹_›)]
      · rename_i n2
        rw [if_neg (fun h => n2 (h2.mpr h))]

end Sys2Proof

namespace Sys2Proof.Machine

open Sys2Proof

/-- A CTRL write by the OP number, in one formula (R100). -/
theorem ctrlWrite_eq (w : Word) (s : State) :
    ctrlWrite w s = .next
      (if w.toNat % 16 = 0 then s.setIe (w.getLsbD 8)
       else if w.toNat % 16 = 1 then issue (w.getLsbD 8) (State.start .decode) s
       else if w.toNat % 16 = 2 then issue (w.getLsbD 8) (State.start .generate) s
       else rejectReserved (opField w) (w.getLsbD 8) s) := by
  unfold ctrlWrite
  rw [decodeWord_eq]
  by_cases h0 : w.toNat % 16 = 0
  · rw [if_pos h0, if_pos h0]
    rfl
  · rw [if_neg h0, if_neg h0]
    by_cases h1 : w.toNat % 16 = 1
    · rw [if_pos h1, if_pos h1]
      rfl
    · rw [if_neg h1, if_neg h1]
      by_cases h2 : w.toNat % 16 = 2
      · rw [if_pos h2, if_pos h2]
        rfl
      · rw [if_neg h2, if_neg h2]

end Sys2Proof.Machine
end

