-- ==== Sys2Proof/Laws/Bus.lean ====
section
/-! SUPPORT. The register map by ranges of the offset, and what a write at each writable offset is. -/

namespace Sys2Proof.Machine

open Sys2Proof

/-! ### The register map -/

theorem locate_secret : ∀ off : BitVec 10, 0x100 ≤ off.toNat → off.toNat ≤ 0x1FC → locate off = .secretWord (off.toNat - 0x100) := by
  decide +kernel

theorem locate_key : ∀ off : BitVec 10, 0x200 ≤ off.toNat → off.toNat ≤ 0x2FC → locate off = .keyWord (off.toNat - 0x200) := by
  decide +kernel

theorem locate_reserved : ∀ off : BitVec 10,
    (0x044 ≤ off.toNat ∧ off.toNat ≤ 0x0FC ∨ 0x300 ≤ off.toNat) → locate off = .reserved := by
  decide +kernel

theorem locate_eq_ctrl : ∀ off : BitVec 10, locate off = .ctrl ↔ off = 0x008 := by decide +kernel

theorem locate_eq_status : ∀ off : BitVec 10, locate off = .status ↔ off = 0x00C := by decide +kernel

theorem locate_eq_secretLen : ∀ off : BitVec 10, locate off = .secretLen ↔ off = 0x010 := by decide +kernel

theorem locate_eq_tslice : ∀ off : BitVec 10, locate off = .tslice ↔ off = 0x014 := by decide +kernel

/-- Only the SECRET window gives a SECRET word. -/
theorem range_of_locate_secret {off : BitVec 10} {j : Nat} (h : locate off = .secretWord j) :
    0x100 ≤ off.toNat ∧ off.toNat ≤ 0x1FC := by
  have key : ∀ o : BitVec 10,
      (match locate o with | .secretWord _ => true | _ => false) = true → 0x100 ≤ o.toNat ∧ o.toNat ≤ 0x1FC := by
    decide +kernel
  exact key off (by rw [h])

/-- At an aligned offset the result places are the result registers and the KEY window (R108). -/
theorem isResult_locate : ∀ off : BitVec 10, off.toNat % 4 = 0 →
    ((locate off).isResult = true ↔
      0x018 ≤ off.toNat ∧ off.toNat ≤ 0x040 ∨ 0x200 ≤ off.toNat ∧ off.toNat ≤ 0x2FC) := by
  decide +kernel

/-! ### Writes by offset -/

/-- A write at CTRL's offset is a CTRL write. -/
theorem memWrite_ctrl (w : Word) (s : State) : memWrite 0x008 w s = ctrlWrite w s := rfl

theorem memWrite_status (v : Word) (s : State) : memWrite 0x00C v s = .next (s.acknowledge v) := rfl

theorem memWrite_secretLen (v : Word) (s : State) : memWrite 0x010 v s = .next (s.unlessBusy (State.setSecretLen v)) := rfl

theorem memWrite_tslice (v : Word) (s : State) : memWrite 0x014 v s = .next (s.unlessBusy (State.setTslice v)) := rfl

theorem memWrite_secret {off : BitVec 10} (h4 : off.toNat % 4 = 0) (h1 : 0x100 ≤ off.toNat) (h2 : off.toNat ≤ 0x1FC) (v : Word)
    (s : State) : memWrite off v s = .next (s.unlessBusy (State.setSecretWord (off.toNat - 0x100) v)) := by
  simp [memWrite, h4, locate_secret off h1 h2, plainWrite]

end Sys2Proof.Machine
end

