-- ==== Sys2Proof/Laws/Bytes.lean ====
section
/-! SUPPORT. Bytes and words: each byte of a word made of bytes is the byte it was made of, and back. -/

namespace Sys2Proof.Machine

open Sys2Proof

theorem toNat_byteOf (w : Word) (k : Nat) : (byteOf w k).toNat = w.toNat / 2 ^ (8 * k) % 256 := by
  simp [byteOf, BitVec.extractLsb'_toNat, Nat.shiftRight_eq_div_pow]

theorem toNat_be32 (a b c d : Byte) :
    (be32 a b c d).toNat = a.toNat * 16777216 + b.toNat * 65536 + c.toNat * 256 + d.toNat := by
  have ha := a.isLt
  have hb := b.isLt
  have hc := c.isLt
  have hd := d.isLt
  simp only [be32, BitVec.toNat_ofNat]
  omega

theorem toNat_le32 (a b c d : Byte) :
    (le32 a b c d).toNat = a.toNat + b.toNat * 256 + c.toNat * 65536 + d.toNat * 16777216 := by
  have ha := a.isLt
  have hb := b.isLt
  have hc := c.isLt
  have hd := d.isLt
  simp only [le32, BitVec.toNat_ofNat]
  omega

/-- A number below 2^32 by its four base-256 digits. -/
theorem digits256 {a b c d : Nat} (ha : a < 256) (hb : b < 256) (hc : c < 256) (hd : d < 256) :
    (a * 16777216 + b * 65536 + c * 256 + d) / 16777216 % 256 = a ∧
    (a * 16777216 + b * 65536 + c * 256 + d) / 65536 % 256 = b ∧
    (a * 16777216 + b * 65536 + c * 256 + d) / 256 % 256 = c ∧
    (a * 16777216 + b * 65536 + c * 256 + d) / 1 % 256 = d := by
  omega

/-- The bytes of a big-endian word. -/
theorem byteOf_be32 (a b c d : Byte) :
    byteOf (be32 a b c d) 3 = a ∧ byteOf (be32 a b c d) 2 = b ∧ byteOf (be32 a b c d) 1 = c ∧ byteOf (be32 a b c d) 0 = d := by
  have h := digits256 a.isLt b.isLt c.isLt d.isLt
  refine ⟨?_, ?_, ?_, ?_⟩ <;> apply BitVec.eq_of_toNat_eq <;> rw [toNat_byteOf, toNat_be32]
  · exact h.1
  · exact h.2.1
  · exact h.2.2.1
  · exact h.2.2.2

/-- The bytes of a little-endian word. -/
theorem byteOf_le32 (a b c d : Byte) :
    byteOf (le32 a b c d) 0 = a ∧ byteOf (le32 a b c d) 1 = b ∧ byteOf (le32 a b c d) 2 = c ∧ byteOf (le32 a b c d) 3 = d := by
  have e : le32 a b c d = be32 d c b a := by
    apply BitVec.eq_of_toNat_eq
    rw [toNat_le32, toNat_be32]
    omega
  have h := byteOf_be32 d c b a
  rw [e]
  exact ⟨h.2.2.2, h.2.2.1, h.2.1, h.1⟩

/-- A word is the big-endian word of its bytes. -/
theorem be32_byteOf (w : Word) : be32 (byteOf w 3) (byteOf w 2) (byteOf w 1) (byteOf w 0) = w := by
  apply BitVec.eq_of_toNat_eq
  have hw : w.toNat < 4294967296 := w.isLt
  rw [toNat_be32, toNat_byteOf, toNat_byteOf, toNat_byteOf, toNat_byteOf]
  simp only [Nat.reduceMul, Nat.reducePow]
  omega

end Sys2Proof.Machine
end

