-- ==== Sys2Proof/Laws/PerInstr.lean ====
section
/-! SUPPORT. Statements for all instructions, one lemma per constructor. -/

namespace Sys2Proof.Laws.CanonicalWord

open Sys2Proof

/-- The word of an instruction is one software may write (R83, R85, R87), its OP is below 3, and its IE bit is the operand. -/
def Statement (i : Instr) : Prop :=
  i.WellFormed ∧ commandWordWellFormed (encode i) = true ∧ (opField (encode i)).toNat < 3 ∧
    (∀ ie, i = .nop ie ∨ i = .decode ie ∨ i = .generate ie → ieField (encode i) = ie)

theorem nop (ie : Bool) : Statement (.nop ie) := by
  cases ie <;> exact ⟨trivial, by decide, by decide, by decide⟩

theorem decode (ie : Bool) : Statement (.decode ie) := by
  cases ie <;> exact ⟨trivial, by decide, by decide, by decide⟩

theorem generate (ie : Bool) : Statement (.generate ie) := by
  cases ie <;> exact ⟨trivial, by decide, by decide, by decide⟩

end Sys2Proof.Laws.CanonicalWord
end

