-- ==== Sys2Proof/Laws/Sha1.lean ====
section
/-! SUPPORT. SHA-1 and HMAC: the blocks of a message by index, the rounds by the variables before each, the pads as byte sequences;
the code a completion reports. -/

namespace Sys2Proof.Machine

open Sys2Proof

/-- Block i of a message is its bytes from 64 i on (R180). -/
theorem sha1Blocks_eq_map (n : Nat) : ∀ p : List Byte,
    sha1Blocks n p = (List.range n).map fun i => (p.drop (64 * i)).take 64 := by
  induction n with
  | zero => intro p; rfl
  | succ n ih =>
    intro p
    rw [sha1Blocks, ih, List.range_succ_eq_map]
    simp [List.drop_drop, Nat.mul_succ, Nat.add_comm, Function.comp_def]

/-- The rounds from t on, given the working variables before each of them (R185). -/
theorem sha1Rounds_eq_of_vars (w : List Word) : ∀ (t : Nat) (v : Nat → Hash),
    (∀ i < w.length, v (t + i + 1) = sha1Round (t + i) (w.getD i 0) (v (t + i))) →
    sha1Rounds t w (v t) = v (t + w.length) := by
  induction w with
  | nil => intro t v _; rfl
  | cons a w ih =>
    intro t v h
    have h0 : v (t + 1) = sha1Round t a (v t) := by simpa using h 0 (by simp)
    rw [sha1Rounds, ← h0, ih (t + 1) v, List.length_cons, Nat.add_assoc, Nat.add_comm 1]
    intro i hi
    have hs := h (i + 1) (by simpa using hi)
    rw [show t + (i + 1) = t + 1 + i by omega] at hs
    simpa using hs

/-- A pad of one repeated byte, as long as the sequence (R189). -/
theorem zipWith_replicate_eq_xorPad (x : Byte) (k : List Byte) :
    List.zipWith (fun a b => a ^^^ b) k (List.replicate k.length x) = xorPad x k := by
  induction k with
  | nil => rfl
  | cons a k ih => rw [List.length_cons, List.replicate_succ, List.zipWith_cons_cons, ih]; rfl

/-- The code either command's completion leaves in ERRCODE is that of its decoding step (R103, R155). -/
theorem errcode_complete (s : State) :
    s.complete.errcode = match decodeSnap s.params s.snap with
      | .ok _ => 0
      | .error e => e.code := by
  unfold State.complete State.completeDecode State.completeGenerate generateSnap
  cases s.curOp <;> cases decodeSnap s.params s.snap <;> rfl

end Sys2Proof.Machine
end

