-- ==== Sys2Proof/Laws/Step.lean ====
section
/-! SUPPORT. Runs: a run of one more step from a state whose step is known, and the step of a known cycle. -/

namespace Sys2Proof.Machine

open Sys2Proof

theorem run_zero (s : State) : Host.Core.run Sys2Proof.core 0 s = .next s := rfl

/-- One step, then the rest of the run. -/
theorem run_succ_of_step {s s' : State} (n : Nat) (h : step s = .next s') :
    Host.Core.run Sys2Proof.core (n + 1) s = Host.Core.run Sys2Proof.core n s' := by
  have h' : Sys2Proof.core.step s = .next s' := h
  simp only [Host.Core.run, h']

/-- The step of a scheduled cycle without reset. -/
theorem step_of_access {s u : State} {c : ClockCycle} {rest : List ClockCycle} (hi : s.inputs = c :: rest) (hr : c.rstN = true)
    (h : access c (s.beginCycle c rest) = .next u) : step s = .next (u.engine s.phase c.finish) := by
  simp [step, hi, runCycle, hr, h, onNext]

/-- The step of a scheduled reset cycle. -/
theorem step_of_reset {s : State} {c : ClockCycle} {rest : List ClockCycle} (hi : s.inputs = c :: rest) (hr : c.rstN = false) :
    step s = .next (resetCycle c (s.beginCycle c rest)) := by
  simp [step, hi, runCycle, hr]

end Sys2Proof.Machine
end

