-- ==== Sys2Proof/Machine/HostProgram.lean ====
section
/-! DEFINITION. Host programs as bus accesses: the operations of 30_encoding R89 and the pseudo-instructions of R88. They are the
host's side; a step never looks at them. -/

namespace Sys2Proof.Machine

open Sys2Proof

/-- An operation of R89 that reaches the bus. `expect` and the names of `rd` are the host's own and reach nothing. -/
inductive HostOp where
  /-- `wr OFF, V`. -/
  | wr (off : BitVec 10) (v : Word)
  /-- `rd OFF`. -/
  | rd (off : BitVec 10)
  /-- `poll OFF, MASK, V`: `rd OFF` until the value read has `(t & MASK) = V`. -/
  | poll (off : BitVec 10) (mask v : Word)
deriving DecidableEq, Repr

/-- The cycle in which an operation presents its access, the engine not finishing in it. -/
def HostOp.cycle (t : Seconds) : HostOp → ClockCycle
  | .wr off v => writeCycle off v t
  | .rd off => readCycle off t
  | .poll off _ _ => readCycle off t

/-- Whether an operation is over, given what bus_rdata held in the cycle of its access (R89). -/
def HostOp.over (rdata : Option Word) : HostOp → Bool
  | .wr _ _ => true
  | .rd _ => true
  | .poll _ mask v =>
    match rdata with
    | some t => t &&& mask == v
    | none => false

/-- The schedule with an operation's access put before everything else. -/
def HostOp.present (op : HostOp) (s : State) : State := { s with inputs := op.cycle s.timeS :: s.inputs }

/-- A command as the host issues it: its word written to CTRL (R87). -/
def HostOp.command (i : Instr) : HostOp := .wr 0x008 (encode i)

/-- `irq_on` (R88). -/
def HostOp.irqOn : HostOp := .command (.nop true)

/-- `irq_off` (R88). -/
def HostOp.irqOff : HostOp := .command (.nop false)

/-- `wait_done` (R88). -/
def HostOp.waitDone : HostOp := .poll 0x00C 0x00000002 0x00000002

/-- `ack` (R88). -/
def HostOp.ack : HostOp := .wr 0x00C 0x00000002

/-- `ack_all` (R88). -/
def HostOp.ackAll : HostOp := .wr 0x00C 0x00000006

/-- `set_slice V` (R88). -/
def HostOp.setSlice (v : Word) : HostOp := .wr 0x014 v

/-- `load_secret "S"` (R88): the words of S from 0x100 on, missing bytes 0, then its length; refused (none) when S does not fit. -/
def HostOp.loadSecret (p : Params) (s : List Byte) : Option (List HostOp) :=
  if s.length ≤ p.secretMax then
    some
      ((List.range ((s.length + 3) / 4)).map (fun j =>
          HostOp.wr (BitVec.ofNat 10 (0x100 + 4 * j))
            (le32 (byteAt s (4 * j)) (byteAt s (4 * j + 1)) (byteAt s (4 * j + 2)) (byteAt s (4 * j + 3)))) ++
        [HostOp.wr 0x010 (BitVec.ofNat 32 s.length)])
  else none

end Sys2Proof.Machine
end

