-- ==== Sys2Proof/Tests/Slice0.lean ====
section
/-! SUPPORT. Own tests: each is about one operation or one step, its expected result taken from the spec (the comment names the
rule or the vector); then, for every obligation with hypotheses, a state and operands that meet them. -/

namespace Sys2Proof.Tests

open Sys2Proof Sys2Proof.Machine Sys2Proof.Safety

/-! ### Helpers -/

/-- The next state of an outcome, or `d`. -/
def out (o : Host.Outcome State Fault Refusal) (d : State) : State :=
  match o with
  | .next s => s
  | .fault _ => d
  | .refused _ => d

/-- An idle block that holds the secret `b`. -/
def holding (b : List Byte) : State :=
  { State.reset with secretLen := BitVec.ofNat 16 b.length, secret := Memory.ofBytes b }

/-- A block that runs `op` on the secret `b`, with the slice `ts`. -/
def running (op : Op) (b : List Byte) (ts : Word) : State := State.start op { holding b with tslice := ts }

/-- "MZXW6YTBOI======" (95 section 2). -/
def foobarSecret : List Byte :=
  [0x4D, 0x5A, 0x58, 0x57, 0x36, 0x59, 0x54, 0x42, 0x4F, 0x49, 0x3D, 0x3D, 0x3D, 0x3D, 0x3D, 0x3D]

/-- "GEZDGNBVGY3TQOJQ", the secret K10 (95). -/
def k10 : List Byte :=
  [0x47, 0x45, 0x5A, 0x44, 0x47, 0x4E, 0x42, 0x56, 0x47, 0x59, 0x33, 0x54, 0x51, 0x4F, 0x4A, 0x51]

/-- "MY=====": InvalidPaddingCount (95 section 2). -/
def badCount : List Byte := [0x4D, 0x59, 0x3D, 0x3D, 0x3D, 0x3D, 0x3D]

/-- A cycle without access in which a running command completes. -/
def finishing (t : Seconds) : ClockCycle :=
  { rstN := true, sel := false, write := false, addr := 0, wdata := 0, timeS := t, finish := true }

/-- A cycle without access in which a running command goes on. -/
def waiting (t : Seconds) : ClockCycle :=
  { rstN := true, sel := false, write := false, addr := 0, wdata := 0, timeS := t, finish := false }

/-- A reset cycle in which a read is presented. -/
def resetting : ClockCycle :=
  { rstN := false, sel := true, write := false, addr := 0, wdata := 0, timeS := 0, finish := true }

/-- `s` with the cycle `c` next. -/
def given (s : State) (c : ClockCycle) : State := { s with inputs := [c] }

/-! ### What WellFormed refuses -/

/-- Bit 4 is reserved (R83). -/
theorem test_word_with_bit4_refused : commandWordWellFormed 0x00000011 = false := by decide
/-- Bit 7 is reserved (R83). -/
theorem test_word_with_bit7_refused : commandWordWellFormed 0x00000082 = false := by decide
/-- Bit 9 is reserved (R83). -/
theorem test_word_with_bit9_refused : commandWordWellFormed 0x00000200 = false := by decide
/-- Bit 31 is reserved (R83). -/
theorem test_word_with_bit31_refused : commandWordWellFormed 0x80000001 = false := by decide
/-- OP 3 and OP 15 are reserved (R85). -/
theorem test_word_with_reserved_op_refused :
    commandWordWellFormed 0x00000003 = false ∧ commandWordWellFormed 0x0000010F = false := by decide
/-- The offsets of B12 and B13 are misaligned (R64). -/
theorem test_misaligned_offset_refused : offsetAligned 0x00A = false ∧ offsetAligned 0x001 = false := by decide
/-- The word of `generate ie=1` (R87). -/
theorem test_generate_word_accepted : commandWordWellFormed 0x00000102 = true := by decide
/-- Every instruction is well formed. -/
theorem test_instr_well_formed (i : Instr) : i.WellFormed := by cases i <;> trivial

/-! ### Words written out bit by bit (R80, R81) -/

theorem test_decode_nop_word : decodeTableWord 32 0b00000000000000000000000100000000 = some (.nop true) := by decide
theorem test_decode_decode_word : decodeTableWord 32 0b00000000000000000000000000000001 = some (.decode false) := by decide
theorem test_decode_generate_word : decodeTableWord 32 0b00000000000000000000000100000010 = some (.generate true) := by decide
/-- All reserved bits set (R83). -/
theorem test_decode_ignores_reserved_bits :
    decodeTableWord 32 0b11111111111111111111111011110010 = some (.generate false) := by decide
/-- OP 3 and OP 15, the ends of the reserved range (R85). -/
theorem test_decode_reserved_ops :
    decodeWord 0b00000000000000000000000100000011 = .error (.reservedOp 0x3 true) ∧
      decodeWord 0b00000000000000000000000000001111 = .error (.reservedOp 0xF false) := by decide
/-- A row given in one byte: IE is then 0. -/
theorem test_table_word_of_one_byte : decodeTableWord 8 0b00000001 = some (.decode false) := by decide
/-- R87's examples. -/
theorem test_encode : encode (.generate true) = 0x00000102 ∧ encode (.decode false) = 0x00000001 := by decide

/-! ### The first instruction after reset -/

/-- NOP runs: IE is stored (B6). -/
theorem test_fetch_nop : (out (step (State.reset.withFetchWord 32 0x00000100)) State.reset).ctrlWord = 0x00000100 := by
  decide +kernel
/-- DECODE runs: BUSY, LASTOP 1. -/
theorem test_fetch_decode : (out (step (State.reset.withFetchWord 32 0x00000001)) State.reset).statusWord = 0x00000101 := by
  decide +kernel
/-- GENERATE runs: BUSY, LASTOP 2. -/
theorem test_fetch_generate : (out (step (State.reset.withFetchWord 32 0x00000002)) State.reset).statusWord = 0x00000201 := by
  decide +kernel

/-! ### One step of each command -/

/-- B7: with DONE = 1 and IE = 0, `nop ie=1` raises irq and leaves STATUS. -/
theorem test_nop_raises_irq :
    (out (exec (.nop true) { State.reset with done := true }) State.reset).irq = true ∧
      (out (exec (.nop true) { State.reset with done := true }) State.reset).statusWord = 0x00000002 := by decide +kernel
/-- B18: a NOP while BUSY is not dropped. -/
theorem test_nop_while_busy :
    (out (exec (.nop true) (running .decode k10 0)) State.reset).dropped = false ∧
      (out (exec (.nop true) (running .decode k10 0)) State.reset).ie = true := by decide +kernel
/-- P2: STATUS, KEY_LEN and the KEY words of "foobar". -/
theorem test_decode_completion :
    (out (step (given (running .decode foobarSecret 0) (finishing 0))) State.reset).statusWord = 0x00000102 ∧
      (out (step (given (running .decode foobarSecret 0) (finishing 0))) State.reset).keyLen = 6 ∧
      (out (step (given (running .decode foobarSecret 0) (finishing 0))) State.reset).readLoc (.keyWord 0) = 0x626F6F66 ∧
      (out (step (given (running .decode foobarSecret 0) (finishing 0))) State.reset).readLoc (.keyWord 4) = 0x00007261 := by
  decide +kernel
/-- 95 section 2, "MY=====": STATUS 0x122 and no key. -/
theorem test_decode_failure :
    (out (step (given (running .decode badCount 0) (finishing 0))) State.reset).statusWord = 0x00000122 ∧
      (out (step (given (running .decode badCount 0) (finishing 0))) State.reset).keyLen = 0 := by decide +kernel
/-- GEN24: K10 with TSLICE = 1. -/
theorem test_generate_completion :
    (out (step (given (running .generate k10 1) (finishing 0))) State.reset).statusWord = 0x00000202 ∧
      (out (step (given (running .generate k10 1) (finishing 0))) State.reset).gen =
        { tsUsed := 1, trunc := 0x6028723C, code := 263420, codeStr0 := 0x34333632, codeStr1 := 0x3032
          mac0 := 0xc1e02872, mac1 := 0x3cc62bdf, mac2 := 0x50621687, mac3 := 0xb9d3809e, mac4 := 0x9fb2c1c1 } := by
  decide +kernel
/-- GEN12: time_s is sampled in the cycle of the start. -/
theorem test_generate_samples_time :
    (out (step (given (holding k10) (writeCycle 0x008 0x00000002 59))) State.reset).snap.time = 59 := by decide +kernel
/-- R11, R44: a cycle of a running GENERATE without an event leaves ikey as it was, all zero. -/
theorem test_generate_waits :
    (out (step (given (running .generate k10 1) (waiting 0))) State.reset).ikey = [] ∧
      (running .generate k10 1).loadIkey.ikey ≠ [] := by decide +kernel
/-- GEN-b: a failed GENERATE reports code 2, and TS_USED is 0. -/
theorem test_generate_failure :
    (out (step (given (running .generate badCount 0) (finishing 1234567890))) State.reset).statusWord = 0x00000222 ∧
      (out (step (given (running .generate badCount 0) (finishing 1234567890))) State.reset).gen.tsUsed = 0 := by decide +kernel

/-! ### The bus -/

/-- B11: OP 15 with IE is rejected at once. -/
theorem test_reserved_op :
    (out (memWrite 0x008 0x0000010F State.reset) State.reset).statusWord = 0x00000F82 ∧
      (out (memWrite 0x008 0x0000010F State.reset) State.reset).irq = true := by decide +kernel
/-- B12: a misaligned write to CTRL starts nothing. -/
theorem test_misaligned_write : memWrite 0x00A 0x00000001 State.reset = .next { State.reset with busErr := true } := rfl
/-- B13: a misaligned read. -/
theorem test_misaligned_read :
    (memRead 0x001 State.reset).busRdata = some 0 ∧ (memRead 0x001 State.reset).busErr = true := by decide
/-- B14: only the low half of SECRET_LEN is stored. -/
theorem test_secret_len : (out (memWrite 0x010 0xABCD1234 State.reset) State.reset).secretLen = 0x1234 := by decide
/-- R34: the lowest lane is the first byte. -/
theorem test_secret_lanes : (out (memWrite 0x100 0x445A4547 State.reset) State.reset).secretBytes = [] ∧
    (out (memWrite 0x100 0x445A4547 State.reset) State.reset).secretByte 0 = 0x47 ∧
    (out (memWrite 0x100 0x445A4547 State.reset) State.reset).secretByte 3 = 0x44 := by decide +kernel
/-- D-g: SECRET_MAX = 10: PARAM, and byte 10 does not exist. -/
theorem test_small_block : paramWord { secretMax := 10, blockPage := 0 } = 0x0606000A ∧
    (out (memWrite 0x108 0xFFFFFFFF { State.reset with params := { secretMax := 10, blockPage := 0 } }) State.reset).secret =
      [(8, 0xFF), (9, 0xFF)] := by decide +kernel
/-- B16: a TSLICE write while BUSY is dropped. -/
theorem test_busy_drop : (out (memWrite 0x014 5 (running .decode k10 0)) State.reset).tslice = 0 ∧
    (out (memWrite 0x014 5 (running .decode k10 0)) State.reset).dropped = true := by decide +kernel
/-- B23: an acknowledgement in the cycle of the completion comes first; DONE survives. -/
theorem test_ack_and_completion :
    (out (step (given (running .decode k10 0) { writeCycle 0x00C 2 0 with finish := true })) State.reset).done = true := by
  decide +kernel
/-- B24: reset during a command. -/
theorem test_reset_while_busy :
    (out (step (given (running .decode k10 0) resetting)) State.reset).statusWord = 0 ∧
      (out (step (given (running .decode k10 0) resetting)) State.reset).secret = [] := by decide +kernel

/-- R60: an access reaches a block at base 0x800 when its address lies in the 1 KiB from there, at the low ten bits. -/
theorem test_platform_address :
    atPlatform { secretMax := 256, blockPage := 2 } 0x80C (readCycle 0 0) = readCycle 0x00C 0 ∧
      (atPlatform { secretMax := 256, blockPage := 2 } 0xC0C (readCycle 0 0)).sel = false := by decide

/-! ### The units -/

/-- "0==" reports the count before the character (R248). -/
theorem test_priority : base32Decode [0x30, 0x3D, 0x3D] = .error .invalidPaddingCount := by decide +kernel
/-- "A=A" (R124). -/
theorem test_placement : base32Decode [0x41, 0x3D, 0x41] = .error .invalidPaddingPlacement := by decide +kernel
/-- "=" decodes to nothing (R125). -/
theorem test_all_padding : base32Decode [0x3D] = .ok [] := by decide +kernel
/-- SHA1 of "abc" (R186). -/
theorem test_sha1 : sha1Hash [0x61, 0x62, 0x63] =
    { h0 := 0xA9993E36, h1 := 0x4706816A, h2 := 0xBA3E2571, h3 := 0x7850C26C, h4 := 0x9CD0D89D } := by decide +kernel
/-- T3: the top bit is dropped; offset 0. -/
theorem test_truncate_top_bit : truncate ([0x80, 0, 0, 0] ++ zeros 16) = 0 := by decide
/-- 42 is "000042" (R223). -/
theorem test_format : format6 42 = [0x30, 0x30, 0x30, 0x30, 0x34, 0x32] := by decide
/-- GEN18: the slice wraps mod 2^32. -/
theorem test_slice_wraps : sliceOf 128849019030 = 5 := by decide +kernel

/-! ### Host programs (R88) -/

theorem test_irq_on : HostOp.irqOn = .wr 0x008 0x00000100 := by decide
/-- The six writes of P2's load. -/
theorem test_load_secret : HostOp.loadSecret Params.default foobarSecret =
    some [.wr 0x100 0x57585A4D, .wr 0x104 0x42545936, .wr 0x108 0x3D3D494F, .wr 0x10C 0x3D3D3D3D, .wr 0x010 0x10] := by
  decide +kernel
/-- `wait_done` ends when DONE reads 1, and not before. -/
theorem test_wait_done : HostOp.waitDone.over (some 0x00000102) = true ∧ HostOp.waitDone.over (some 0x00000101) = false := by
  decide

/-! ### Witnesses: for each obligation with hypotheses, a state and operands that meet them -/

/-- A running GENERATE, two cycles from its completion. -/
def busyState : State := { running .generate k10 1 with inputs := [waiting 7, finishing 8] }

theorem witness_ReservedBitsOfACommandWordAreIgnored : ∃ w s t, w &&& 0xFFFFFEF0 ≠ 0 ∧ memWrite 0x008 w s = .next t :=
  ⟨0xFFFFFEF2, State.reset, _, by decide, rfl⟩

theorem witness_StepRunsTheDecodedCommand : ∃ (s : State) (c : ClockCycle) (rest : List ClockCycle) (i : Instr),
    s.inputs = c :: rest ∧ c.rstN = true ∧ c.sel = true ∧ c.write = true ∧ c.addr = 0x008 ∧ decodeWord c.wdata = .ok i :=
  ⟨given (holding k10) (writeCycle 0x008 0x102 59), writeCycle 0x008 0x102 59, [], .generate true, rfl, rfl, rfl, rfl, rfl, rfl⟩

theorem witness_ABlockWithoutAnEventKeepsEveryRegister_idle : ∃ (s : State) (c : ClockCycle) (rest : List ClockCycle),
    s.phase = .idle ∧ c.finish = true ∧ s.inputs = c :: rest ∧ c.rstN = true ∧ c.sel = false :=
  ⟨given (holding k10) (finishing 5), finishing 5, [], rfl, rfl, rfl, rfl, rfl⟩

theorem witness_ABlockWithoutAnEventKeepsEveryRegister_busy : ∃ (s : State) (c : ClockCycle) (rest : List ClockCycle),
    s.phase = .busy ∧ s.curOp = .generate ∧ c.finish = false ∧ s.inputs = c :: rest ∧ c.rstN = true ∧ c.sel = false :=
  ⟨busyState, waiting 7, [finishing 8], rfl, rfl, rfl, rfl, rfl, rfl⟩

theorem witness_DecodeStartsWhenIdle : (holding foobarSecret).phase = .idle := rfl

theorem witness_GenerateStartsWhenIdle :
    (holding k10).phase = .idle ∧ (holding k10).tslice = 0 ∧ { holding k10 with tslice := 1 }.tslice ≠ 0 :=
  ⟨rfl, rfl, by decide⟩

theorem witness_ABusyBlockDropsCommandsAndInputWrites : busyState.phase = .busy ∧
    (0x00000101 : Word).toNat % 16 ≠ 0 ∧ (0x0000000F : Word).toNat % 16 ≠ 0 ∧
    (∀ off ∈ [(0x100 : BitVec 10), 0x1FC], off.toNat % 4 = 0 ∧ 0x100 ≤ off.toNat ∧ off.toNat ≤ 0x1FC) := by
  decide

theorem witness_AReservedOpIsRejectedAtOnce : 3 ≤ (0x00000003 : Word).toNat % 16 ∧ 3 ≤ (0x0000010F : Word).toNat % 16 ∧
    State.reset.phase = .idle ∧ busyState.phase = .busy := by decide

theorem witness_ACommandWordLeavesInputsAndResultsAlone :
    (∃ t, exec (.nop true) busyState = .next t) ∧ (∃ t, exec (.decode true) (holding k10) = .next t) ∧
    (∃ t, exec (.generate false) busyState = .next t) ∧ (holding k10).phase = .idle ∧ busyState.phase = .busy :=
  ⟨⟨_, rfl⟩, ⟨_, rfl⟩, ⟨_, rfl⟩, rfl, rfl⟩

/-- The result a completion works from. -/
def resultOf (s : State) : Except Err (List Byte) :=
  if s.snap.len.toNat > s.params.secretMax then .error .secretTooLong else base32Decode s.snap.secret

theorem witness_DecodeCompletionWritesTheKey_ok : (running .decode foobarSecret 0).curOp = .decode ∧
    resultOf (running .decode foobarSecret 0) = .ok [0x66, 0x6F, 0x6F, 0x62, 0x61, 0x72] ∧
    (running .decode foobarSecret 0).params.secretMax = 256 ∧
    (running .decode foobarSecret 0).snap.secret.length ≤ (running .decode foobarSecret 0).params.secretMax ∧
    (running .decode foobarSecret 0).complete.keyLen.toNat ≤ 6 := by decide +kernel

theorem witness_DecodeCompletionWritesTheKey_error : (running .decode badCount 0).curOp = .decode ∧
    resultOf (running .decode badCount 0) = .error .invalidPaddingCount := by decide +kernel

/-- SECRET_LEN one above SECRET_MAX (D-a). -/
theorem witness_DecodeCompletionWritesTheKey_tooLong :
    resultOf (State.start .decode { State.reset with secretLen := 257 }) = .error .secretTooLong := by decide +kernel

theorem witness_GenerateCompletionWritesTheResults :
    (running .generate k10 1).curOp = .generate ∧
    resultOf (running .generate k10 1) = .ok [0x31, 0x32, 0x33, 0x34, 0x35, 0x36, 0x37, 0x38, 0x39, 0x30] ∧
    (running .generate k10 1).snap.tslice ≠ 0 ∧ (running .generate k10 0).snap.tslice = 0 ∧
    resultOf (running .generate badCount 1) = .error .invalidPaddingCount := by decide +kernel

theorem witness_ACompletionLeavesTheOtherCommandsResultsAlone :
    (running .decode k10 0).curOp = .decode ∧ (running .generate k10 0).curOp = .generate := ⟨rfl, rfl⟩

/-- Two blocks that differ in IE, DROPPED and the sampled time, within one slice. -/
theorem witness_GenerateDependsOnItsSnapshotAlone :
    ∃ s u : State, s ≠ u ∧ s.curOp = .generate ∧ u.curOp = .generate ∧ s.params.secretMax = u.params.secretMax ∧
      s.snap.len = u.snap.len ∧ s.snap.secret = u.snap.secret ∧ s.snap.tslice = u.snap.tslice ∧
      (s.snap.tslice = 0 → (s.snap.time.toNat / 30) % 2 ^ 32 = (u.snap.time.toNat / 30) % 2 ^ 32) :=
  ⟨State.start .generate { holding k10 with timeS := 30 },
    State.start .generate { holding k10 with timeS := 59, ie := true, dropped := true },
    by decide +kernel, rfl, rfl, rfl, rfl, rfl, rfl, fun _ => by decide +kernel⟩

/-- A GENERATE with a busy write in between and one more cycle after its completion. -/
theorem witness_NothingTheHostDoesChangesARunningCommand :
    ∃ (s : State) (c0 cf : ClockCycle) (cs rest : List ClockCycle) (ie : Bool) (op : Op) (u : State),
      s.phase = .idle ∧ s.inputs = c0 :: (cs ++ cf :: rest) ∧
      c0.rstN = true ∧ c0.sel = true ∧ c0.write = true ∧ c0.addr = 0x008 ∧
      (decodeWord c0.wdata = .ok (.decode ie) ∧ op = .decode ∨ decodeWord c0.wdata = .ok (.generate ie) ∧ op = .generate) ∧
      (∀ c ∈ cs, c.rstN = true ∧ c.finish = false) ∧ cf.rstN = true ∧ cf.finish = true ∧ cs ≠ [] ∧
      u = (State.start op { s with ie := ie, timeS := c0.timeS }).complete :=
  ⟨{ holding k10 with inputs := [writeCycle 0x008 0x102 59, writeCycle 0x014 5 60, finishing 61, waiting 62] },
    writeCycle 0x008 0x102 59, finishing 61, [writeCycle 0x014 5 60], [waiting 62], true, .generate, _,
    rfl, rfl, rfl, rfl, rfl, rfl, .inr ⟨rfl, rfl⟩, by decide, rfl, rfl, by decide, rfl⟩

theorem witness_ARunningCommandCompletesUnlessReset : busyState.phase = .busy ∧ ∀ c ∈ busyState.inputs, c.rstN = true := by
  decide

theorem witness_EveryStepKeepsTheStateLegal : LegalState busyState ∧ ∃ t, step busyState = .next t :=
  ⟨{ params := by constructor <;> decide
     buffers := { secretWf := by decide +kernel, keyWf := rfl, ikeyWf := rfl, secretIn := by decide +kernel, keyIn := rfl, ikeyIn := rfl }
     status := { busyNotDone := fun _ => rfl, busyNoError := fun _ => rfl, busyNamesOp := fun _ => rfl, codeDefined := rfl,
                 illegalIffReserved := by decide }
     snap := { len := fun _ => rfl, secret := fun _ => rfl, tslice := fun _ => rfl }
     ikey := rfl
     key := { lenBound := Nat.zero_le _, zeroPast := fun _ _ => rfl }
     gen := .inl rfl }, _, rfl⟩

theorem witness_EveryStepKeepsTheBuffersCanonical : BuffersOk busyState ∧ ∃ t, step busyState = .next t :=
  ⟨witness_EveryStepKeepsTheStateLegal.1.buffers, witness_EveryStepKeepsTheStateLegal.2⟩

/-- A write of `v` at `off` presented to `s`. -/
def writing (s : State) (off : BitVec 10) (v : Word) : State := given s (writeCycle off v 0)

theorem writes_writing (s : State) (off : BitVec 10) (v : Word) : WritesAt (nextCycle (writing s off v)).1 off :=
  ⟨rfl, rfl, rfl, rfl⟩

theorem witness_DiscardNext_command : DiscardNext (writing busyState 0x008 0x0000000F) :=
  ⟨rfl, .inl ⟨_, ⟨writes_writing _ _ _, rfl⟩, by decide⟩⟩

theorem witness_DiscardNext_inputs : ∀ off ∈ [(0x010 : BitVec 10), 0x014, 0x100, 0x1FC], DiscardNext (writing busyState off 1) :=
  fun off h => ⟨rfl, .inr ⟨off, writes_writing _ _ _, by revert off; decide⟩⟩

theorem witness_ResetNext : ResetNext (given busyState resetting) := rfl

theorem witness_ClearNext : ClearNext 1 (writing busyState 0x00C 2) ∧ ClearNext 2 (writing busyState 0x00C 4) :=
  ⟨⟨_, ⟨writes_writing _ _ _, rfl⟩, by decide⟩, ⟨_, ⟨writes_writing _ _ _, rfl⟩, by decide⟩⟩

theorem witness_StartNext : StartNext (writing (holding k10) 0x008 1) ∧ StartNext (writing (holding k10) 0x008 0x102) :=
  ⟨⟨rfl, _, ⟨writes_writing _ _ _, rfl⟩, by decide⟩, ⟨rfl, _, ⟨writes_writing _ _ _, rfl⟩, by decide⟩⟩

theorem witness_RejectionNext : RejectionNext (writing (holding k10) 0x008 3) ∧ RejectionNext (writing (holding k10) 0x008 0xF) :=
  ⟨⟨rfl, _, ⟨writes_writing _ _ _, rfl⟩, by decide⟩, ⟨rfl, _, ⟨writes_writing _ _ _, rfl⟩, by decide⟩⟩

theorem witness_CompletionNext :
    CompletesNext .decode (given (running .decode k10 0) (finishing 0)) ∧
    CompletesNext .generate (given (running .generate k10 0) (finishing 0)) :=
  ⟨⟨rfl, rfl, rfl, rfl⟩, ⟨rfl, rfl, rfl, rfl⟩⟩

/-- A waiting cycle is none of the kinds of step. -/
theorem witness_no_kind (s : State) : ¬ ResetNext (given s (waiting 0)) ∧ ¬ CompletionNext (given s (waiting 0)) ∧
    ¬ StartNext (given s (waiting 0)) ∧ ¬ RejectionNext (given s (waiting 0)) ∧ ¬ DiscardNext (given s (waiting 0)) ∧
    ∀ k, ¬ ClearNext k (given s (waiting 0)) := by
  simp [ResetNext, CompletionNext, CompletesNext, StartNext, RejectionNext, DiscardNext, ClearNext, CommandNext, StatusWriteNext,
    WritesAt, nextCycle, given, waiting]

theorem witness_ResultsChangeOnlyAtTheirOwnCompletionOrReset : ∃ s t : State, step s = .next t ∧ ¬ ResetNext s ∧
    ¬ CompletesNext .decode s ∧ ¬ CompletesNext .generate s :=
  ⟨given busyState (waiting 0), _, rfl, (witness_no_kind _).1, fun h => (witness_no_kind _).2.1 (.inl h),
    fun h => (witness_no_kind _).2.1 (.inr h)⟩

theorem witness_DroppedIsSticky : ∃ s t : State, step s = .next t ∧ s.dropped = true ∧ ¬ DiscardNext s ∧ ¬ ResetNext s ∧
    ¬ ClearNext 2 s :=
  ⟨given { busyState with dropped := true } (waiting 0), _, rfl, rfl, (witness_no_kind _).2.2.2.2.1, (witness_no_kind _).1,
    (witness_no_kind _).2.2.2.2.2 2⟩

/-- A clearing write with no completion in its cycle; the other kinds are witnessed above. -/
theorem witness_DoneIsSetAndClearedOnlyAsTheSpecSays : ∃ s t : State, step s = .next t ∧ s.done = true ∧ ClearNext 1 s ∧
    ¬ CompletionNext s :=
  ⟨writing { holding k10 with done := true } 0x00C 2, _, rfl, rfl, ⟨_, ⟨writes_writing _ _ _, rfl⟩, by decide⟩, by
    simp [CompletionNext, CompletesNext, writing, given, holding, State.reset]⟩

theorem witness_BusyErrcodeAndLastopAreWrittenOnlyByCommands :
    (∃ k, decodeSnap (running .decode k10 0).params (running .decode k10 0).snap = .ok k) ∧
    decodeSnap (running .decode badCount 0).params (running .decode badCount 0).snap = .error .invalidPaddingCount := by
  exact ⟨⟨[0x31, 0x32, 0x33, 0x34, 0x35, 0x36, 0x37, 0x38, 0x39, 0x30], by decide +kernel⟩, by decide +kernel⟩

theorem witness_IrqRisesAndFallsOnlyAsTheSpecSays :
    (∃ s t : State, step s = .next t ∧ s.irq = false ∧ t.irq = true) ∧ ∃ s t : State, step s = .next t ∧ s.irq = true ∧ t.irq = false :=
  ⟨⟨writing { State.reset with done := true } 0x008 0x100, _, rfl, rfl, by decide +kernel⟩,
    ⟨writing { State.reset with done := true, ie := true } 0x00C 2, _, rfl, rfl, by decide +kernel⟩⟩

theorem witness_InputsAreFixedWhileBusy : ∃ s t : State, step s = .next t ∧ s.phase = .busy ∧ ¬ ResetNext s :=
  ⟨writing busyState 0x014 5, _, rfl, rfl, by simp [ResetNext, nextCycle, writing, given, writeCycle]⟩

theorem witness_ResetOverridesEverythingInItsCycle : ∃ (s : State) (c : ClockCycle) (rest : List ClockCycle),
    s.phase = .busy ∧ s.inputs = c :: rest ∧ c.rstN = false ∧ c.sel = true ∧ c.write = false ∧ c.finish = true :=
  ⟨given busyState resetting, resetting, [], rfl, rfl, rfl, rfl, rfl, rfl⟩

theorem witness_NoKeyMaterialSurvivesReset : ∃ (s t : State) (c : ClockCycle) (rest : List ClockCycle),
    s.secret ≠ [] ∧ s.inputs = c :: rest ∧ c.rstN = false ∧ step s = .next t :=
  ⟨given busyState resetting, _, resetting, [], by decide +kernel, rfl, rfl, rfl⟩

/-- The ends of the two windows. -/
theorem witness_window_ends : ∀ off ∈ [(0x100 : BitVec 10), 0x1FC, 0x200, 0x2FC], off.toNat % 4 = 0 ∧
    (0x100 ≤ off.toNat ∧ off.toNat ≤ 0x1FC ∨ 0x200 ≤ off.toNat ∧ off.toNat ≤ 0x2FC) := by decide

theorem witness_AMisalignedAccessOnlyReportsABusError :
    (0x001 : BitVec 10).toNat % 4 ≠ 0 ∧ (0x3FF : BitVec 10).toNat % 4 ≠ 0 ∧ (0x00A : BitVec 10).toNat % 4 ≠ 0 := by decide

theorem witness_ABusErrorMarksExactlyTheMisalignedAccesses :
    (∃ t, step (writing busyState 0x00A 1) = .next t ∧ t.busErr = true) ∧
    ∃ t, step (writing busyState 0x014 1) = .next t ∧ t.busErr = false :=
  ⟨⟨_, rfl, rfl⟩, ⟨_, rfl, rfl⟩⟩

theorem witness_AReadHasNoSideEffect : State.reset.phase = .idle := rfl

theorem witness_EveryOffsetReadsAsTheRegisterMapSays : (holding k10).phase = .idle ∧ 0 < 64 ∧ 63 < 64 ∧
    ∀ off ∈ [(0x044 : BitVec 10), 0x0FC, 0x300, 0x3FC], off.toNat % 4 = 0 ∧
      (0x044 ≤ off.toNat ∧ off.toNat ≤ 0x0FC ∨ 0x300 ≤ off.toNat ∧ off.toNat ≤ 0x3FC) := by decide

theorem witness_ResultReadsAreUnspecifiedWhileBusy : busyState.phase = .busy ∧
    (∀ off ∈ [(0x018 : BitVec 10), 0x040, 0x200, 0x2FC], off.toNat % 4 = 0 ∧
      (0x018 ≤ off.toNat ∧ off.toNat ≤ 0x040 ∨ 0x200 ≤ off.toNat ∧ off.toNat ≤ 0x2FC)) ∧
    ∀ off ∈ [(0x000 : BitVec 10), 0x014, 0x044, 0x1FC, 0x300, 0x3FC], off.toNat % 4 = 0 ∧
      ¬ (0x018 ≤ off.toNat ∧ off.toNat ≤ 0x040 ∨ 0x200 ≤ off.toNat ∧ off.toNat ≤ 0x2FC) := by decide

theorem witness_WritesToReadOnlyAndReservedPlacesAreIgnored :
    ∀ off ∈ [(0x000 : BitVec 10), 0x004, 0x018, 0x040, 0x044, 0x0FC, 0x200, 0x2FC, 0x300, 0x3FC], off.toNat % 4 = 0 ∧
      (off.toNat ≤ 0x004 ∨ 0x018 ≤ off.toNat ∧ off.toNat ≤ 0x0FC ∨ 0x200 ≤ off.toNat) := by decide

theorem witness_ParamHasTheSpecsLayout : Params.Legal { secretMax := 1, blockPage := 0 } ∧ Params.Legal Params.default ∧
    Params.default.secretMax = 256 := ⟨by constructor <;> decide, by constructor <;> decide, rfl⟩

theorem witness_AnIdleBlockStoresItsInputs : (holding k10).phase = .idle ∧ (holding k10).secret.wf = true ∧ 0 < 64 ∧ 63 < 64 := by
  decide +kernel

/-- The ends of the alphabet's two ranges, and the bytes beside them. -/
theorem witness_TheLookupInvertsTheAlphabet :
    b32Index 0x41 = some 0 ∧ b32Index 0x5A = some 25 ∧ b32Index 0x32 = some 26 ∧ b32Index 0x37 = some 31 ∧
    b32Index 0x40 = none ∧ b32Index 0x5B = none ∧ b32Index 0x31 = none ∧ b32Index 0x38 = none := by decide

theorem witness_ThePaddingCountIsTheLongestTrailingRun : trailingPads badCount = 5 ∧ badCount.length = 7 ∧
    trailingPads [0x3D] = 1 := by decide

/-- One snapshot for each of the errors (95 section 2), SECRET_LEN at SECRET_MAX and one above among them. -/
theorem witness_TheFirstFailingCheckGivesTheError :
    decodeSnap Params.default { len := 257, secret := [], tslice := 0, time := 0 } = .error .secretTooLong ∧
    decodeSnap Params.default { len := 0, secret := [], tslice := 0, time := 0 } = .error .emptySecret ∧
    decodeSnap Params.default { len := 7, secret := badCount, tslice := 0, time := 0 } = .error .invalidPaddingCount ∧
    decodeSnap Params.default { len := 2, secret := [0x3D, 0x41], tslice := 0, time := 0 } = .error .invalidPaddingPlacement ∧
    decodeSnap Params.default { len := 2, secret := [0x30, 0x3D], tslice := 0, time := 0 } = .error .invalidCharacter ∧
    decodeSnap Params.default { len := 256, secret := [0x41, 0x42], tslice := 0, time := 0 } = .ok [0] := by decide +kernel

/-- A command `op` about to complete on a secret of `len` bytes whose snapshot is `b`. -/
def completing (op : Op) (len : BitVec 16) (b : List Byte) : State :=
  { State.reset with phase := .busy, curOp := op, snap := { len := len, secret := b, tslice := 1, time := 0 } }

/-- R240's number for each failing check of R248 and for none (95 section 2), at the completion of either command. -/
theorem witness_TheFirstFailingCheckGivesTheError_codes (op : Op) :
    ((completing op 1 [0x41]).curOp = .decode ∨ (completing op 1 [0x41]).curOp = .generate) ∧
    (completing op 257 []).complete.errcode = 9 ∧ (completing op 0 []).complete.errcode = 1 ∧
    (completing op 7 badCount).complete.errcode = 2 ∧ (completing op 2 [0x3D, 0x41]).complete.errcode = 3 ∧
    (completing op 2 [0x30, 0x3D]).complete.errcode = 4 ∧ (completing op 256 [0x41, 0x42]).complete.errcode = 0 := by
  cases op <;> decide +kernel

theorem witness_TheDecodedBytesAreTheWholeBytesOfTheBitString :
    base32Decode foobarSecret = .ok [0x66, 0x6F, 0x6F, 0x62, 0x61, 0x72] := by decide +kernel

theorem witness_TheDecodedLengthFollowsTheDataCharacters :
    base32Decode k10 = .ok [0x31, 0x32, 0x33, 0x34, 0x35, 0x36, 0x37, 0x38, 0x39, 0x30] ∧
      k10.length ≤ ({ secretMax := 16, blockPage := 0 } : Params).secretMax := by decide +kernel

/-- "foobar" encodes to S7's example. -/
theorem witness_StandardBase32DecodesToItsBytes : ([0x66, 0x6F, 0x6F, 0x62, 0x61, 0x72] : List Byte) ≠ [] ∧
    base32Encode [0x66, 0x6F, 0x6F, 0x62, 0x61, 0x72] = foobarSecret := by decide +kernel

theorem witness_TheSliceIsTsliceOrTheClocks :
    ({ len := 0, secret := [], tslice := 0xFFFFFFFF, time := 0 } : Snap).tslice ≠ 0 ∧
    ({ len := 0, secret := [], tslice := 0, time := 59 } : Snap).tslice = 0 := by decide

theorem witness_Sha1PaddingFillsWholeBlocks : ∃ a b c : List Byte, a.length ≤ 55 ∧ a.length = 55 ∧ 56 ≤ b.length ∧ b.length = 56 ∧
    c.length ≤ 119 ∧ c.length = 119 :=
  ⟨zeros 55, zeros 56, zeros 119, by decide, by decide, by decide, by decide, by decide, by decide⟩

/-- "abc": W[16] and W[79] of 95 section 3. -/
theorem witness_TheScheduleFollowsItsRecurrence :
    (15 < 16) ∧ (16 ≤ 79 ∧ 79 < 80) ∧
    (schedule (sha1Pad [0x61, 0x62, 0x63])).getD 0 0 = 0x61626380 ∧ (schedule (sha1Pad [0x61, 0x62, 0x63])).getD 16 0 = 0xC2C4C700 ∧
    (schedule (sha1Pad [0x61, 0x62, 0x63])).getD 79 0 = 0x822E0879 := by decide +kernel

/-- The ends of R184's four ranges. -/
theorem witness_RoundFunctionsAndConstantsFollowTheTable :
    sha1K 0 = 0x5A827999 ∧ sha1K 19 = 0x5A827999 ∧ sha1K 20 = 0x6ED9EBA1 ∧ sha1K 39 = 0x6ED9EBA1 ∧ sha1K 40 = 0x8F1BBCDC ∧
    sha1K 59 = 0x8F1BBCDC ∧ sha1K 60 = 0xCA62C1D6 ∧ sha1K 79 = 0xCA62C1D6 := by decide

/-- The working variables before each round, by R185's recurrence. -/
def roundVars (h : Hash) (x : List Byte) : Nat → Hash
  | 0 => h
  | t + 1 =>
    { h0 := rotl 5 (roundVars h x t).h0 + sha1F t (roundVars h x t).h1 (roundVars h x t).h2 (roundVars h x t).h3 +
        (roundVars h x t).h4 + sha1K t + (schedule x).getD t 0
      h1 := (roundVars h x t).h0
      h2 := rotl 30 (roundVars h x t).h1
      h3 := (roundVars h x t).h2
      h4 := (roundVars h x t).h3 }

theorem witness_TheCompressionRunsEightyRounds (h : Hash) (x : List Byte) : roundVars h x 0 = h ∧
    ∀ t < 80, roundVars h x (t + 1) =
      { h0 := rotl 5 (roundVars h x t).h0 + sha1F t (roundVars h x t).h1 (roundVars h x t).h2 (roundVars h x t).h3 +
          (roundVars h x t).h4 + sha1K t + (schedule x).getD t 0
        h1 := (roundVars h x t).h0
        h2 := rotl 30 (roundVars h x t).h1
        h3 := (roundVars h x t).h2
        h4 := (roundVars h x t).h3 } := ⟨rfl, fun _ _ => rfl⟩

/-- The least and the greatest rotation R8's ROTL_n is pinned for, on bit 31. -/
theorem witness_TheCompressionRunsEightyRounds_rotation : (0 < 32) ∧ (31 < 32) ∧
    rotl 0 0x80000001 = 0x80000001 ∧ rotl 1 0x80000001 = 0x00000003 ∧ rotl 31 0x80000001 = 0xC0000000 := by decide

theorem witness_ThePreparedKeyHas64Bytes : (zeros 64).length ≤ 64 ∧ 64 < (zeros 65).length := by decide

theorem witness_TrailingZeroKeyBytesDoNotChangeTheMac : k10.length + 48 ≤ 64 := by decide

theorem witness_SixDigitsWriteTheCode : 0 ≤ 999999 ∧ 999999 ≤ 999999 ∧
    format6 999999 = [0x39, 0x39, 0x39, 0x39, 0x39, 0x39] := by decide

theorem witness_CodeStrHoldsTheDigitsOfCode : ∃ (ts : Word) (mac : List Byte) (g : GenRegs), g = genRegsOf ts mac ∧ g.code ≠ 0 :=
  ⟨1, zeros 18 ++ [1, 0x0F], _, rfl, by decide +kernel⟩

end Sys2Proof.Tests
end

section
/-! The proofs of the family 00_scope: lengths of what the decoder and the hash answer, what a cycle's access can do to the state,
and the invariant LegalState, part by part. -/

namespace Sys2Proof.Machine

open Sys2Proof Sys2Proof.Safety

/-! ### The decoder: its one error of a chunk, and its lengths -/

@[simp] theorem length_wholeBytes (k acc : Nat) : (wholeBytes k acc).length = 5 * k / 8 := by simp [wholeBytes]

/-- A chunk that decodes gives the whole bytes of its 5-bit indexes (R128). -/
theorem length_of_decodeChunk_ok {ch b : List Byte} (h : decodeChunk ch = .ok b) : b.length = 5 * ch.length / 8 := by
  unfold decodeChunk at h
  split at h
  · cases h
  · cases h
    exact length_wholeBytes _ _

/-- Chunks that decode do so chunk by chunk. -/
theorem decodeChunks_succ_ok {n : Nat} {d b : List Byte} (h : decodeChunks (n + 1) d = .ok b) :
    ∃ b₁ b₂, decodeChunk (d.take 8) = .ok b₁ ∧ decodeChunks n (d.drop 8) = .ok b₂ ∧ b = b₁ ++ b₂ := by
  unfold decodeChunks at h
  split at h
  · cases h
  next b₁ h₁ =>
    split at h
    · cases h
    next b₂ h₂ =>
      cases h
      exact ⟨b₁, b₂, h₁, h₂, rfl⟩

/-- The length of all chunks of `d`: five bytes for each whole chunk, and the whole bytes of the short one (R129). -/
theorem length_of_decodeChunks_ok {n : Nat} : ∀ {d b : List Byte}, n = (d.length + 7) / 8 → decodeChunks n d = .ok b →
    b.length = 5 * (d.length / 8) + 5 * (d.length % 8) / 8 := by
  induction n with
  | zero =>
    intro d b hn h
    cases h
    simp only [List.length_nil]
    omega
  | succ n ih =>
    intro d b hn h
    obtain ⟨b₁, b₂, h₁, h₂, rfl⟩ := decodeChunks_succ_ok h
    have hdrop : (d.drop 8).length = d.length - 8 := List.length_drop
    have l₁ := length_of_decodeChunk_ok h₁
    have l₂ := ih (by omega) h₂
    rw [List.length_take] at l₁
    rw [List.length_append]
    omega

/-- A secret that decodes passed every padding check: its bytes are those of the chunks of its data characters (R125, R127). -/
theorem decodeChunks_of_base32Decode_ok {s b : List Byte} (h : base32Decode s = .ok b) :
    decodeChunks (((dataChars s).length + 7) / 8) (dataChars s) = .ok b := by
  have hlen : (dataChars s).length = s.length - trailingPads s := by
    rw [dataChars, List.length_take]
    omega
  unfold base32Decode at h
  rw [hlen]
  split at h
  · cases h
  · split at h
    · cases h
    · split at h
      · cases h
      · exact h

/-- R129: the length of a decoded secret. -/
theorem length_of_base32Decode_ok {s b : List Byte} (h : base32Decode s = .ok b) :
    b.length = 5 * ((dataChars s).length / 8) + 5 * ((dataChars s).length % 8) / 8 :=
  length_of_decodeChunks_ok rfl (decodeChunks_of_base32Decode_ok h)

/-- R5: a decoded secret that fits the block fits KEY. -/
theorem length_le_keyMax_of_base32Decode_ok {s b : List Byte} {p : Params} (h : base32Decode s = .ok b)
    (hs : s.length ≤ p.secretMax) : b.length ≤ keyMax p := by
  have hb := length_of_base32Decode_ok h
  have hd : (dataChars s).length ≤ s.length := List.length_take_le' _ _
  unfold keyMax
  omega

/-- Only an unknown character stops the gathering of a chunk (R126). -/
theorem eq_invalidCharacter_of_gather_error {ch : List Byte} {e : Err} :
    ∀ {acc : Nat}, gather acc ch = .error e → e = .invalidCharacter := by
  induction ch with
  | nil => intro acc h; cases h
  | cons c cs ih =>
    intro acc h
    unfold gather at h
    split at h
    · cases h; rfl
    · exact ih h

theorem eq_invalidCharacter_of_decodeChunk_error {ch : List Byte} {e : Err} (h : decodeChunk ch = .error e) :
    e = .invalidCharacter := by
  unfold decodeChunk at h
  split at h
  next e' he =>
    cases h
    exact eq_invalidCharacter_of_gather_error he
  · cases h

theorem eq_invalidCharacter_of_decodeChunks_error {n : Nat} {e : Err} :
    ∀ {d : List Byte}, decodeChunks n d = .error e → e = .invalidCharacter := by
  induction n with
  | zero => intro d h; cases h
  | succ n ih =>
    intro d h
    unfold decodeChunks at h
    split at h
    next e' he =>
      cases h
      exact eq_invalidCharacter_of_decodeChunk_error he
    · split at h
      next e' he =>
        cases h
        exact ih he
      · cases h

/-- The decoding step never reports IllegalCommand, the error of a reserved OP (R105). -/
theorem ne_illegalCommand_of_decodeSnap_error {p : Params} {n : Snap} {e : Err} (h : decodeSnap p n = .error e) :
    e ≠ .illegalCommand := by
  unfold decodeSnap base32Decode at h
  repeat' split at h
  case isFalse.isFalse.isFalse.isFalse =>
    rw [eq_invalidCharacter_of_decodeChunks_error h]
    decide
  all_goals cases h; decide

/-- A snapshot decodes when its length fits and its secret decodes (R133, R157). -/
theorem base32Decode_of_decodeSnap_ok {p : Params} {n : Snap} {k : List Byte} (h : decodeSnap p n = .ok k) :
    base32Decode n.secret = .ok k := by
  unfold decodeSnap at h
  split at h
  · cases h
  · exact h

/-! ### Bytes, digests and pads -/

theorem beBytes32_be32 (a b c d : Byte) : beBytes32 (be32 a b c d) = [a, b, c, d] := by
  obtain ⟨h3, h2, h1, h0⟩ := byteOf_be32 a b c d
  simp only [beBytes32, h3, h2, h1, h0]

/-- A sequence by its bytes. -/
theorem map_byteAt_range (b : List Byte) : (List.range b.length).map (byteAt b) = b := by
  apply List.ext_getElem
  · simp
  · intro i hi hi'
    simp [byteAt, hi']

@[simp] theorem length_digest (h : Hash) : h.digest.length = 20 := rfl

@[simp] theorem length_sha1 (m : List Byte) : (sha1 m).length = 20 := length_digest _

@[simp] theorem length_hmacSha1 (k m : List Byte) : (hmacSha1 k m).length = 20 := length_sha1 _

@[simp] theorem length_keyPrep (k : List Byte) : (keyPrep k).length = 64 := by
  unfold keyPrep zeros
  split
  · simp
  · simp only [List.length_append, List.length_replicate]
    omega

/-- R186: each word of a digest is read back big-endian. -/
theorem be32_digest (h : Hash) :
    be32 (byteAt h.digest 0) (byteAt h.digest 1) (byteAt h.digest 2) (byteAt h.digest 3) = h.h0 ∧
    be32 (byteAt h.digest 4) (byteAt h.digest 5) (byteAt h.digest 6) (byteAt h.digest 7) = h.h1 ∧
    be32 (byteAt h.digest 8) (byteAt h.digest 9) (byteAt h.digest 10) (byteAt h.digest 11) = h.h2 ∧
    be32 (byteAt h.digest 12) (byteAt h.digest 13) (byteAt h.digest 14) (byteAt h.digest 15) = h.h3 ∧
    be32 (byteAt h.digest 16) (byteAt h.digest 17) (byteAt h.digest 18) (byteAt h.digest 19) = h.h4 :=
  ⟨be32_byteOf h.h0, be32_byteOf h.h1, be32_byteOf h.h2, be32_byteOf h.h3, be32_byteOf h.h4⟩

/-- R180: the hash as a fold over the block numbers. -/
theorem sha1Hash_eq_foldl (m : List Byte) :
    sha1Hash m = (List.range ((sha1Pad m).length / 64)).foldl
      (fun h i => compress h (((sha1Pad m).drop (64 * i)).take 64)) sha1Init := by
  rw [sha1Hash, sha1Blocks_eq_map, List.foldl_map]

/-- R189: the padded key as the exclusive or of two sequences of 64 bytes. -/
theorem zipWith_keyPrep_eq_xorPad (x : Byte) (k : List Byte) :
    List.zipWith (fun a b => a ^^^ b) (keyPrep k) (List.replicate 64 x) = xorPad x (keyPrep k) := by
  rw [← zipWith_replicate_eq_xorPad, length_keyPrep]

/-! ### SHA-1 padding (R182) -/

@[simp] theorem length_beBytes64 (w : BitVec 64) : (beBytes64 w).length = 8 := rfl

/-- The bytes of a 64-bit value are its base-256 digits, the most significant first (R9). -/
theorem bytesValue_beBytes64 (w : BitVec 64) : bytesValue (beBytes64 w) = w.toNat := by
  have hw : w.toNat < 18446744073709551616 := w.isLt
  simp only [bytesValue, beBytes64, List.range, List.range.loop, List.map_cons, List.map_nil, List.foldl_cons, List.foldl_nil,
    BitVec.extractLsb'_toNat, Nat.shiftRight_eq_div_pow]
  omega

theorem padZeros_fills (n : Nat) : (n + 1 + padZeros n + 8) % 64 = 0 := by
  unfold padZeros
  omega

theorem padZeros_least {n z : Nat} (h : z < padZeros n) : (n + 1 + z + 8) % 64 ≠ 0 := by
  unfold padZeros at h
  omega

theorem length_sha1Pad (m : List Byte) : (sha1Pad m).length = m.length + 1 + padZeros m.length + 8 := by
  simp only [sha1Pad, zeros, List.length_append, List.length_replicate, List.length_singleton, length_beBytes64]

/-! ### What the access of a cycle does to the state -/

/-- Everything the host does to a state in a cycle, by what is written: `minor` writes are those of IE, DROPPED, the ports and
the model's own counters; the inputs are stored, and a command is started or rejected, by an idle block only (R63, R100). -/
inductive HostEffect (s : State) : State → Prop
  | minor (ie dropped : Bool) (timeS : Seconds) (busRdata : Option Word) (busErr : Bool) (inputs : List ClockCycle)
      (draws : Nat) : HostEffect s { s with ie, dropped, timeS, busRdata, busErr, inputs, draws }
  | acknowledge (v : Word) : HostEffect s (s.acknowledge v)
  | setSecretLen (hp : s.phase = .idle) (v : Word) : HostEffect s (s.setSecretLen v)
  | setTslice (hp : s.phase = .idle) (v : Word) : HostEffect s (s.setTslice v)
  | setSecretWord (hp : s.phase = .idle) (j : Nat) (v : Word) : HostEffect s (s.setSecretWord j v)
  | start (hp : s.phase = .idle) (ie : Bool) (op : Op) : HostEffect s ((s.setIe ie).start op)
  | reject (hp : s.phase = .idle) (ie : Bool) (op : BitVec 4) (hop : 3 ≤ op.toNat) :
      HostEffect s (State.report Err.illegalCommand.code { s.setIe ie with lastop := op })

theorem hostEffect_beginCycle (c : ClockCycle) (rest : List ClockCycle) (s : State) : HostEffect s (s.beginCycle c rest) :=
  .minor ..

theorem hostEffect_memRead (off : BitVec 10) (s : State) : HostEffect s (memRead off s) := by
  rcases memRead_cases off s with ⟨-, e⟩ | ⟨-, -, -, e⟩ | ⟨-, -, e⟩
  all_goals
    rw [e]
    exact .minor ..

theorem hostEffect_of_exec {i : Instr} {s t : State} (h : exec i s = .next t) : HostEffect s t := by
  rcases exec_cases h with ⟨ie, -, rfl⟩ | ⟨ie, op, -, hp, rfl⟩ | ⟨ie, -, -, rfl⟩
  · exact .minor ..
  · exact .start hp ie op
  · exact .minor ..

/-- The rejected OP of a command word is one of R85's. -/
theorem reservedOp_ge_three {w : Word} {op : BitVec 4} {ie : Bool} (h : decodeWord w = .error (.reservedOp op ie)) :
    3 ≤ op.toNat := by
  rw [decodeWord_eq] at h
  split at h
  · cases h
  · split at h
    · cases h
    · split at h
      · cases h
      · cases h
        rw [toNat_opField]
        omega

theorem hostEffect_of_ctrlWrite {w : Word} {s t : State} (h : ctrlWrite w s = .next t) : HostEffect s t := by
  rcases ctrlWrite_cases h with ⟨i, -, he⟩ | ⟨op, ie, hd, rfl⟩
  · exact hostEffect_of_exec he
  · rcases rejectReserved_cases op ie s with ⟨hp, e⟩ | ⟨-, e⟩
    · rw [e]
      exact .reject hp ie op (reservedOp_ge_three hd)
    · rw [e]
      exact .minor ..

theorem hostEffect_plainWrite (l : Loc) (v : Word) (s : State) : HostEffect s (plainWrite l v s) := by
  rcases plainWrite_cases l v s with
    ⟨-, e⟩ | ⟨hp, ⟨-, e⟩ | ⟨-, e⟩ | ⟨j, -, e⟩⟩ | ⟨-, -, e⟩ | e
  all_goals rw [e]
  · exact .acknowledge v
  · exact .setSecretLen hp v
  · exact .setTslice hp v
  · exact .setSecretWord hp j v
  · exact .minor ..
  · exact .minor ..

theorem hostEffect_of_memWrite {off : BitVec 10} {v : Word} {s t : State} (h : memWrite off v s = .next t) :
    HostEffect s t := by
  rcases memWrite_cases h with ⟨-, rfl⟩ | ⟨-, -, hc⟩ | ⟨-, -, rfl⟩
  · exact .minor ..
  · exact hostEffect_of_ctrlWrite hc
  · exact hostEffect_plainWrite _ v s

theorem hostEffect_of_access {c : ClockCycle} {s t : State} (h : access c s = .next t) : HostEffect s t := by
  rcases access_cases h with ⟨-, rfl⟩ | ⟨-, -, hw⟩ | ⟨-, -, rfl⟩
  · exact .minor ..
  · exact hostEffect_of_memWrite hw
  · exact hostEffect_memRead _ s

/-- The host never writes the parameters, the results or ikey (R5, R109). -/
theorem HostEffect.frame {s t : State} (h : HostEffect s t) :
    t.params = s.params ∧ t.keyLen = s.keyLen ∧ t.key = s.key ∧ t.gen = s.gen ∧ t.ikey = s.ikey := by
  cases h with
  | setSecretWord _ j v =>
    obtain ⟨m, hm, -, -⟩ := State.setSecretWord_eq j v s
    rw [hm]
    exact ⟨rfl, rfl, rfl, rfl, rfl⟩
  | _ => exact ⟨rfl, rfl, rfl, rfl, rfl⟩

/-- Short of reset and completion a busy block stays busy (R106). -/
theorem HostEffect.busy {s t : State} (h : HostEffect s t) (hp : s.phase = .busy) : t.phase = .busy := by
  cases h with
  | minor | acknowledge => exact hp
  | start => rfl
  | setSecretLen hi | setTslice hi | setSecretWord hi | reject hi => simp [hi] at hp

/-! ### A reset cycle -/

/-- A reset cycle resets the block, and answers 0 to a read (R270). -/
theorem resetCycle_eq (c : ClockCycle) (s : State) :
    resetCycle c s = { s.resetBlock with busRdata := if c.sel && !c.write then some 0 else s.busRdata } := by
  unfold resetCycle
  split <;> rfl

theorem State.secretByte_of_secret_nil {s : State} (h : s.secret = []) (i : Nat) : s.secretByte i = 0 := by
  rw [State.secretByte, h]
  exact ite_self _

theorem State.keyByte_of_key_nil {s : State} (h : s.key = []) (i : Nat) : s.keyByte i = 0 := by
  rw [State.keyByte, h]
  exact ite_self _

/-! ### A step -/

/-- What a step does: a reset cycle; or the host's effect, after which a command that was running may complete. -/
theorem hostEffect_of_step {s t : State} (h : step s = .next t) :
    (∃ c u, HostEffect s u ∧ t = resetCycle c u) ∨
    (∃ u v, HostEffect s u ∧ HostEffect u v ∧ (t = v ∨ s.phase = .busy ∧ t = v.complete)) := by
  obtain ⟨c, rest, -, ⟨-, rfl⟩ | ⟨-, v, ha, rfl⟩⟩ := step_cases h
  · exact .inl ⟨c, _, hostEffect_beginCycle c rest s, rfl⟩
  · refine .inr ⟨_, v, hostEffect_beginCycle c rest s, hostEffect_of_access ha, ?_⟩
    rcases State.engine_cases s.phase c.finish v with ⟨-, e⟩ | ⟨hb, -, e⟩ | ⟨-, -, e⟩
    · exact .inl e
    · exact .inr ⟨hb, e⟩
    · exact .inl e

/-- What is kept by the host's effects, by the completion of a running command and by the reset of the block is kept by every
step. -/
theorem step_preserves {P : State → Prop} (host : ∀ {s t}, HostEffect s t → P s → P t)
    (complete : ∀ {s : State}, s.phase = .busy → P s → P s.complete) (reset : ∀ {s : State}, P s → P s.resetBlock)
    {s t : State} (h : step s = .next t) (hs : P s) : P t := by
  rcases hostEffect_of_step h with ⟨c, u, hu, rfl⟩ | ⟨u, v, hu, hv, rfl | ⟨hb, rfl⟩⟩
  · rw [resetCycle_eq]
    exact host (.minor ..) (reset (host hu hs))
  · exact host hv (host hu hs)
  · exact complete (hv.busy (hu.busy hb)) (host hv (host hu hs))

/-! ### A completion, and the codes it reports -/

theorem Op.code_lt_three (op : Op) : op.code.toNat < 3 := by cases op <;> decide

theorem Err.code_defined (e : Err) : errcodeDefined e.code = true := by cases e <;> rfl

theorem Err.code_eq_eight_iff (e : Err) : e.code = 8 ↔ e = .illegalCommand := by cases e <;> decide

/-- A completion ends in IDLE and leaves the parameters and LASTOP (R5, R32, R103). -/
theorem State.complete_frame (s : State) :
    s.complete.phase = .idle ∧ s.complete.params = s.params ∧ s.complete.lastop = s.lastop := by
  rcases s.complete_cases with ⟨-, k, -, e⟩ | ⟨-, e', -, e⟩ | ⟨-, k, -, e⟩ | ⟨-, e', -, e⟩
  all_goals
    rw [e]
    exact ⟨rfl, rfl, rfl⟩

@[simp] theorem State.complete_phase (s : State) : s.complete.phase = .idle := s.complete_frame.1

@[simp] theorem State.complete_params (s : State) : s.complete.params = s.params := s.complete_frame.2.1

@[simp] theorem State.complete_lastop (s : State) : s.complete.lastop = s.lastop := s.complete_frame.2.2

/-- The code a completion leaves is 0 or that of a decoding error, never IllegalCommand (R103, R155). -/
theorem errcode_complete_defined (s : State) : errcodeDefined s.complete.errcode = true ∧ s.complete.errcode ≠ 8 := by
  rw [errcode_complete]
  cases hd : decodeSnap s.params s.snap with
  | ok k => exact ⟨rfl, (by decide : (0 : BitVec 4) ≠ 8)⟩
  | error e =>
    exact ⟨Err.code_defined e, fun h8 => ne_illegalCommand_of_decodeSnap_error hd ((Err.code_eq_eight_iff e).mp h8)⟩

end Sys2Proof.Machine

namespace Sys2Proof.Safety

open Sys2Proof Sys2Proof.Machine

/-! ### The buffers -/

theorem BuffersOk.host {s t : State} (e : HostEffect s t) (h : BuffersOk s) : BuffersOk t := by
  cases e with
  | setSecretWord _ j v =>
    obtain ⟨m, hm, hwf, hin⟩ := State.setSecretWord_eq j v s
    rw [hm]
    exact { h with secretWf := hwf h.secretWf, secretIn := hin h.secretIn }
  | _ => exact { h with }

theorem BuffersOk.complete {s : State} (h : BuffersOk s) : BuffersOk s.complete := by
  rcases s.complete_cases with ⟨-, k, -, e⟩ | ⟨-, e', -, e⟩ | ⟨-, k, -, e⟩ | ⟨-, e', -, e⟩
  all_goals rw [e]
  · exact { h with keyWf := Memory.wf_ofBytes _, keyIn := Memory.below_ofBytes (List.length_take_le _ _) }
  · exact { h with keyWf := Memory.wf_nil, keyIn := Memory.below_nil _ }
  · exact { h with ikeyWf := Memory.wf_nil, ikeyIn := Memory.below_nil _ }
  · exact { h with ikeyWf := Memory.wf_nil, ikeyIn := Memory.below_nil _ }

theorem BuffersOk.resetBlock (s : State) : BuffersOk s.resetBlock := ⟨rfl, rfl, rfl, rfl, rfl, rfl⟩

/-! ### STATUS -/

/-- STATUS of an idle block has no more to show than a code that is written, and 8 exactly for a reserved OP. -/
theorem StatusOk.of_idle {s : State} (hp : s.phase = .idle) (hd : errcodeDefined s.errcode = true)
    (hi : s.errcode = 8 ↔ 3 ≤ s.lastop.toNat) : StatusOk s where
  busyNotDone hb := by simp [hp] at hb
  busyNoError hb := by simp [hp] at hb
  busyNamesOp hb := by simp [hp] at hb
  codeDefined := hd
  illegalIffReserved := hi

theorem StatusOk.host {s t : State} (e : HostEffect s t) (h : StatusOk s) : StatusOk t := by
  cases e with
  | minor | setSecretLen | setTslice => exact { h with }
  | setSecretWord _ j v =>
    obtain ⟨m, hm, -, -⟩ := State.setSecretWord_eq j v s
    rw [hm]
    exact { h with }
  | acknowledge v => exact { h with busyNotDone := fun hb => by simp [h.busyNotDone hb] }
  | start _ ie op =>
    have hop := Op.code_lt_three op
    exact
      { busyNotDone := fun _ => rfl
        busyNoError := fun _ => rfl
        busyNamesOp := fun _ => rfl
        codeDefined := rfl
        illegalIffReserved := by
          constructor
          · intro h8; simp at h8
          · intro h3; simp at h3; omega }
  | reject _ ie op hop => exact .of_idle rfl rfl ⟨fun _ => hop, fun _ => rfl⟩

theorem StatusOk.complete {s : State} (hp : s.phase = .busy) (h : StatusOk s) : StatusOk s.complete := by
  obtain ⟨hd, h8⟩ := errcode_complete_defined s
  have hop := Op.code_lt_three s.curOp
  have hlast : s.complete.lastop = s.curOp.code := by rw [State.complete_lastop, h.busyNamesOp hp]
  refine .of_idle s.complete_phase hd ⟨fun h => absurd h h8, fun h3 => ?_⟩
  rw [hlast] at h3
  omega

theorem StatusOk.resetBlock (s : State) : StatusOk s.resetBlock := .of_idle rfl rfl (by simp)

/-! ### The snapshot -/

theorem SnapLive.of_idle {s : State} (hp : s.phase = .idle) : SnapLive s where
  len hb := by simp [hp] at hb
  secret hb := by simp [hp] at hb
  tslice hb := by simp [hp] at hb

theorem SnapLive.host {s t : State} (e : HostEffect s t) (h : SnapLive s) : SnapLive t := by
  cases e with
  | minor | acknowledge => exact ⟨h.len, h.secret, h.tslice⟩
  | start => exact ⟨fun _ => rfl, fun _ => rfl, fun _ => rfl⟩
  | setSecretLen hp | setTslice hp => exact .of_idle hp
  | setSecretWord hp j v =>
    obtain ⟨m, hm, -, -⟩ := State.setSecretWord_eq j v s
    rw [hm]
    exact .of_idle hp
  | reject => exact .of_idle rfl

/-- A running command's secret fits the block (R102). -/
theorem SnapLive.length_secret_le {s : State} (h : SnapLive s) (hp : s.phase = .busy) :
    s.snap.secret.length ≤ s.params.secretMax := by
  rw [h.secret hp, State.secretBytes, List.length_map, List.length_range]
  exact Nat.min_le_right _ _

/-! ### KEY -/

theorem KeyOk.of_eq {s t : State} (h : KeyOk s) (hp : t.params = s.params) (hl : t.keyLen = s.keyLen) (hk : t.key = s.key) :
    KeyOk t where
  lenBound := by rw [hp, hl]; exact h.lenBound
  zeroPast := by rw [hl, hk]; exact h.zeroPast

theorem KeyOk.of_empty {s : State} (hl : s.keyLen = 0) (hk : s.key = []) : KeyOk s where
  lenBound := by simp [hl]
  zeroPast := by simp [hk]

theorem keyMax_le_of_legal {p : Params} (h : p.Legal) : keyMax p ≤ 160 := by
  have hmax : p.secretMax ≤ 256 := h.2
  unfold keyMax
  omega

/-- KEY as a DECODE writes it: the bytes of a key that fits, zeros past them (R133). -/
theorem KeyOk.of_bytes {s : State} {k : List Byte} (hp : s.params.Legal) (hfit : k.length ≤ keyMax s.params)
    (hl : s.keyLen = BitVec.ofNat 16 k.length) (hk : s.key = Memory.ofBytes (k.take (keyMax s.params))) : KeyOk s := by
  have hmax := keyMax_le_of_legal hp
  have hlen : s.keyLen.toNat = k.length := by
    rw [hl, BitVec.toNat_ofNat]
    omega
  refine ⟨by omega, fun i hi => ?_⟩
  rw [hk, List.take_of_length_le hfit, Memory.read_ofBytes, List.getD_eq_default _ _ (by omega)]

theorem KeyOk.complete {s : State} (hp : s.phase = .busy) (hl : s.params.Legal) (hs : SnapLive s) (h : KeyOk s) :
    KeyOk s.complete := by
  rcases s.complete_cases with ⟨-, k, hk, e⟩ | ⟨-, e', -, e⟩ | ⟨-, k, -, e⟩ | ⟨-, e', -, e⟩
  all_goals rw [e]
  · have hfit := length_le_keyMax_of_base32Decode_ok (base32Decode_of_decodeSnap_ok hk) (hs.length_secret_le hp)
    exact .of_bytes hl hfit rfl rfl
  · exact .of_empty rfl rfl
  · exact h.of_eq rfl rfl rfl
  · exact h.of_eq rfl rfl rfl

/-! ### The GENERATE results -/

/-- The MAC registers hold the mac they were made of (R42). -/
theorem macBytes_genRegsOf (ts : Word) {mac : List Byte} (h : mac.length = 20) : macBytes (genRegsOf ts mac) = mac := by
  calc macBytes (genRegsOf ts mac) = (List.range 20).map (byteAt mac) := by
        simp only [macBytes, genRegsOf, beBytes32_be32]
        rfl
    _ = mac := by rw [← h, map_byteAt_range]

theorem GenOk.of_mac (ts : Word) {mac : List Byte} (h : mac.length = 20) : GenOk (genRegsOf ts mac) := by
  right
  rw [macBytes_genRegsOf ts h]
  rfl

theorem GenOk.complete {s : State} (h : GenOk s.gen) : GenOk s.complete.gen := by
  rcases s.complete_cases with ⟨-, k, -, e⟩ | ⟨-, e', -, e⟩ | ⟨-, k, -, e⟩ | ⟨-, e', -, e⟩
  all_goals rw [e]
  · exact h
  · exact h
  · exact GenOk.of_mac _ (length_hmacSha1 k _)
  · exact .inl rfl

theorem ikey_complete {s : State} (h : s.ikey = []) : s.complete.ikey = [] := by
  rcases s.complete_cases with ⟨-, k, -, e⟩ | ⟨-, e', -, e⟩ | ⟨-, k, -, e⟩ | ⟨-, e', -, e⟩
  all_goals rw [e]
  · exact h
  · exact h
  · rfl
  · rfl

/-! ### Legal states -/

theorem LegalState.host {s t : State} (e : HostEffect s t) (h : LegalState s) : LegalState t := by
  obtain ⟨hparams, hkeyLen, hkey, hgen, hikey⟩ := e.frame
  exact
    { params := by rw [hparams]; exact h.params
      buffers := h.buffers.host e
      status := h.status.host e
      snap := h.snap.host e
      ikey := by rw [hikey]; exact h.ikey
      key := h.key.of_eq hparams hkeyLen hkey
      gen := by rw [hgen]; exact h.gen }

theorem LegalState.complete {s : State} (hp : s.phase = .busy) (h : LegalState s) : LegalState s.complete where
  params := by rw [State.complete_params]; exact h.params
  buffers := h.buffers.complete
  status := h.status.complete hp
  snap := .of_idle s.complete_phase
  ikey := ikey_complete h.ikey
  key := h.key.complete hp h.params h.snap
  gen := h.gen.complete

theorem LegalState.resetBlock {s : State} (h : s.params.Legal) : LegalState s.resetBlock where
  params := h
  buffers := .resetBlock s
  status := .resetBlock s
  snap := .of_idle rfl
  ikey := rfl
  key := .of_empty rfl rfl
  gen := .inl rfl

end Sys2Proof.Safety

open Sys2Proof Sys2Proof.Machine Sys2Proof.Safety

/-- Settles O21: the host's effects, a completion and a reset each keep every part of LegalState. -/
theorem everyStepKeepsTheStateLegal : Obligations.EveryStepKeepsTheStateLegal := by
  intro s t hs h
  exact step_preserves LegalState.host LegalState.complete (fun hl => LegalState.resetBlock hl.params) h hs

/-- Settles O30: the step is a reset cycle, which leaves the reset block with at most its read answered. -/
theorem resetOverridesEverythingInItsCycle : Obligations.ResetOverridesEverythingInItsCycle := by
  intro s c rest hi hr
  refine ⟨_, (step_of_reset hi hr).trans (congrArg _ (resetCycle_eq c _)), rfl, rfl, rfl, rfl, rfl, rfl, rfl,
    State.secretByte_of_secret_nil rfl, rfl, rfl, rfl, State.keyByte_of_key_nil rfl, Memory.read_nil, rfl, rfl, rfl, ?_⟩
  intro hsel hw
  simp [hsel, hw]

/-- Settles O46: the length of the chunks of the data characters, by induction on the number of chunks. -/
theorem theDecodedLengthFollowsTheDataCharacters : Obligations.TheDecodedLengthFollowsTheDataCharacters := by
  intro s b h
  exact ⟨length_of_base32Decode_ok h, fun _ => ⟨rfl, length_le_keyMax_of_base32Decode_ok h⟩⟩

/-- Settles O50: `padZeros` is the least number of zero bytes, and the length field holds the bit length mod 2^64. -/
theorem sha1PaddingFillsWholeBlocks : Obligations.Sha1PaddingFillsWholeBlocks := by
  intro m
  have hlen := length_sha1Pad m
  have hz : padZeros m.length = (119 - m.length % 64) % 64 := rfl
  refine ⟨padZeros m.length, padZeros_fills _, fun _ => padZeros_least, rfl, length_beBytes64 _, ?_, hlen, ?_, ?_⟩
  · rw [bytesValue_beBytes64, BitVec.toNat_ofNat]
  · omega
  · omega

/-- Settles O55: the digest read back word by word, the blocks by number, and the pads as exclusive ors with the prepared key. -/
theorem digestsAndMacsHave20Bytes : Obligations.DigestsAndMacsHave20Bytes := by
  refine ⟨toNat_be32, fun h => ⟨length_digest h, be32_digest h⟩, fun m => ⟨rfl, sha1Hash_eq_foldl m⟩,
    fun k m => ⟨length_hmacSha1 k m, ?_⟩⟩
  rw [zipWith_keyPrep_eq_xorPad, zipWith_keyPrep_eq_xorPad]
  rfl

/-- Settles O4: the access of the cycle is exec of the decoded command. -/
theorem stepRunsTheDecodedCommand : Obligations.StepRunsTheDecodedCommand := by
  intro s c rest i hi hr hsel hw haddr hd
  have hacc : access c (s.beginCycle c rest) = exec i (s.beginCycle c rest) := by
    simp only [access, hsel, hw, haddr, if_true, memWrite_ctrl, ctrlWrite, hd]
  simp only [step, hi, runCycle, hr, if_true, hacc]
  rfl

/-- Settles O5: no access leaves the state at the start of the cycle, and no completion leaves it to the end. -/
theorem aBlockWithoutAnEventKeepsEveryRegister : Obligations.ABlockWithoutAnEventKeepsEveryRegister := by
  intro s c rest hquiet hi hr hsel
  have hacc : access c (s.beginCycle c rest) = .next (s.beginCycle c rest) := by simp [access, hsel]
  have heng : State.engine s.phase c.finish (s.beginCycle c rest) = s.beginCycle c rest := by
    rcases State.engine_cases s.phase c.finish (s.beginCycle c rest) with ⟨-, e⟩ | ⟨hb, hf, -⟩ | ⟨-, -, e⟩
    · exact e
    · rcases hquiet with hp | hn
      · simp [hp] at hb
      · simp [hn] at hf
    · exact e
  rw [step_of_access hi hr hacc, heng]
  rfl

/-- Settles O20: `State.reset` is what a reset of the block leaves of itself. -/
theorem resetIsALegalState : Obligations.ResetIsALegalState :=
  LegalState.resetBlock (s := State.reset) ⟨by decide, by decide⟩

end

section
/-! The proofs of the family 10_state about steps: which of the spec's kinds the next step can be, by the place it writes; what the
access of a cycle of each kind does (`HostMove`, `step_kinds`); and the registers after it. -/

namespace Sys2Proof.Safety

open Sys2Proof Sys2Proof.Machine

/-! ### The place the next cycle writes, and the kinds of step it can then be -/

/-- The offsets of the inputs: SECRET_LEN, TSLICE and the words of the SECRET window (R63). -/
def InputOffset (off : BitVec 10) : Prop :=
  off = 0x010 ∨ off = 0x014 ∨ (off.toNat % 4 = 0 ∧ 0x100 ≤ off.toNat ∧ off.toNat ≤ 0x1FC)

/-- The next step writes an input: three of R106's four kinds. -/
def InputWriteNext (s : State) : Prop := ∃ off : BitVec 10, WritesAt (nextCycle s).1 off ∧ InputOffset off

/-- The next step writes no place at which a write has an effect (R63). -/
structure NoWriteNext (s : State) : Prop where
  command : ∀ w, ¬ CommandNext w s
  status : ∀ w, ¬ StatusWriteNext w s
  input : ¬ InputWriteNext s

theorem WritesAt.unique {c : ClockCycle} {off off' : BitVec 10} (h : WritesAt c off) (h' : WritesAt c off') : off = off' := by
  obtain ⟨-, -, -, ha⟩ := h
  obtain ⟨-, -, -, ha'⟩ := h'
  exact ha.symm.trans ha'

theorem CommandNext.unique {w w' : Word} {s : State} (h : CommandNext w s) (h' : CommandNext w' s) : w' = w :=
  h'.2.symm.trans h.2

theorem StatusWriteNext.unique {w w' : Word} {s : State} (h : StatusWriteNext w s) (h' : StatusWriteNext w' s) : w' = w :=
  h'.2.symm.trans h.2

theorem StatusWriteNext.not_commandNext {w : Word} {s : State} (h : StatusWriteNext w s) (w' : Word) : ¬ CommandNext w' s :=
  fun h' => absurd (h.1.unique h'.1) (by decide)

theorem InputWriteNext.not_writesAt {s : State} (h : InputWriteNext s) {off : BitVec 10} (hoff : off = 0x008 ∨ off = 0x00C) :
    ¬ WritesAt (nextCycle s).1 off := by
  obtain ⟨o, ho, hin⟩ := h
  intro hw
  obtain rfl := hw.unique ho
  rcases hoff with rfl | rfl
  all_goals simp [InputOffset] at hin

theorem InputWriteNext.not_commandNext {s : State} (h : InputWriteNext s) (w : Word) : ¬ CommandNext w s :=
  fun hc => h.not_writesAt (.inl rfl) hc.1

theorem InputWriteNext.not_statusWriteNext {s : State} (h : InputWriteNext s) (w : Word) : ¬ StatusWriteNext w s :=
  fun hc => h.not_writesAt (.inr rfl) hc.1

theorem noWriteNext_of_offset {s : State}
    (h : ∀ off, WritesAt (nextCycle s).1 off → off ≠ 0x008 ∧ off ≠ 0x00C ∧ ¬ InputOffset off) : NoWriteNext s where
  command _ hc := (h _ hc.1).1 rfl
  status _ hc := (h _ hc.1).2.1 rfl
  input := fun ⟨off, hw, hin⟩ => (h off hw).2.2 hin

/-- A reset cycle writes nothing (R270). -/
theorem ResetNext.noWriteNext {s : State} (h : ResetNext s) : NoWriteNext s :=
  noWriteNext_of_offset fun _ hw => absurd (h.symm.trans hw.1) Bool.false_ne_true

theorem ResetNext.not_completionNext {s : State} (h : ResetNext s) : ¬ CompletionNext s := by
  rintro (hc | hc)
  all_goals exact Bool.false_ne_true (h.symm.trans hc.1)

theorem CompletionNext.busy {s : State} (h : CompletionNext s) : s.phase = .busy := by
  rcases h with ⟨-, hp, -⟩ | ⟨-, hp, -⟩
  all_goals exact hp

/-- A step that completes a command neither starts nor rejects one. -/
theorem CompletionNext.not_start_or_rejection {s : State} (h : CompletionNext s) : ¬ StartNext s ∧ ¬ RejectionNext s := by
  have hp := h.busy
  exact ⟨fun ⟨hi, _⟩ => by simp [hi] at hp, fun ⟨hi, _⟩ => by simp [hi] at hp⟩

/-- A running command completes exactly when its cycle is no reset and says so (R104). -/
theorem completionNext_iff {s : State} :
    CompletionNext s ↔ (nextCycle s).1.rstN = true ∧ s.phase = .busy ∧ (nextCycle s).1.finish = true := by
  unfold CompletionNext CompletesNext
  cases s.curOp <;> simp

/-- A step without a CTRL write neither starts nor rejects. -/
theorem not_start_or_rejection_of_not_command {s : State} (h : ∀ w, ¬ CommandNext w s) : ¬ StartNext s ∧ ¬ RejectionNext s :=
  ⟨fun ⟨_, w, hc, _⟩ => h w hc, fun ⟨_, w, hc, _⟩ => h w hc⟩

section
variable {w : Word} {s : State} (h : CommandNext w s)
include h

theorem CommandNext.startNext_iff : StartNext s ↔ s.phase = .idle ∧ (w.toNat % 16 = 1 ∨ w.toNat % 16 = 2) :=
  and_congr_right fun _ => ⟨fun ⟨_, hc, hw⟩ => h.unique hc ▸ hw, fun hw => ⟨w, h, hw⟩⟩

theorem CommandNext.rejectionNext_iff : RejectionNext s ↔ s.phase = .idle ∧ 3 ≤ w.toNat % 16 :=
  and_congr_right fun _ => ⟨fun ⟨_, hc, hw⟩ => h.unique hc ▸ hw, fun hw => ⟨w, h, hw⟩⟩

theorem CommandNext.discardNext_iff : DiscardNext s ↔ s.phase = .busy ∧ w.toNat % 16 ≠ 0 :=
  and_congr_right fun _ =>
    ⟨fun hd => hd.elim (fun ⟨_, hc, hw⟩ => h.unique hc ▸ hw) fun hi => absurd h (InputWriteNext.not_commandNext hi w),
      fun hw => .inl ⟨w, h, hw⟩⟩

theorem CommandNext.not_clearNext (k : Nat) : ¬ ClearNext k s := fun ⟨_, hc, _⟩ => hc.not_commandNext w h

end

section
variable {w : Word} {s : State} (h : StatusWriteNext w s)
include h

theorem StatusWriteNext.clearNext_iff (k : Nat) : ClearNext k s ↔ w.getLsbD k = true :=
  ⟨fun ⟨_, hc, hw⟩ => h.unique hc ▸ hw, fun hw => ⟨w, h, hw⟩⟩

theorem StatusWriteNext.not_discardNext : ¬ DiscardNext s := by
  rintro ⟨-, ⟨w', hc, -⟩ | hi⟩
  · exact h.not_commandNext w' hc
  · exact InputWriteNext.not_statusWriteNext hi w h

end

theorem InputWriteNext.discardNext_iff {s : State} (h : InputWriteNext s) : DiscardNext s ↔ s.phase = .busy :=
  ⟨fun hd => hd.1, fun hp => ⟨hp, .inr h⟩⟩

theorem InputWriteNext.not_clearNext {s : State} (h : InputWriteNext s) (k : Nat) : ¬ ClearNext k s :=
  fun ⟨w, hc, _⟩ => h.not_statusWriteNext w hc

theorem NoWriteNext.not_discardNext {s : State} (h : NoWriteNext s) : ¬ DiscardNext s := by
  rintro ⟨-, ⟨w, hc, -⟩ | hi⟩
  · exact h.command w hc
  · exact h.input hi

theorem NoWriteNext.not_clearNext {s : State} (h : NoWriteNext s) (k : Nat) : ¬ ClearNext k s :=
  fun ⟨w, hc, _⟩ => h.status w hc

/-! ### What the access of a cycle does, by the kind of the cycle -/

/-- The state in which the access of the next cycle acts. -/
abbrev begun (s : State) : State := s.beginCycle (nextCycle s).1 (nextCycle s).2

/-- What the access of the next cycle, no reset cycle, makes of the state: the refinement of `HostEffect` that says which kind of
cycle has which effect (R63, R82, R100 to R106). -/
inductive HostMove (s : State) : State → Prop
  | nop {w : Word} (hc : CommandNext w s) (hw : w.toNat % 16 = 0) : HostMove s ((begun s).setIe (w.getLsbD 8))
  | start {w : Word} (hc : CommandNext w s) (hp : s.phase = .idle) (op : Op) (hw : w.toNat % 16 = op.code.toNat) :
      HostMove s (((begun s).setIe (w.getLsbD 8)).start op)
  | reject {w : Word} (hc : CommandNext w s) (hp : s.phase = .idle) (hw : 3 ≤ w.toNat % 16) :
      HostMove s (State.report Err.illegalCommand.code { (begun s).setIe (w.getLsbD 8) with lastop := opField w })
  | dropCommand {w : Word} (hc : CommandNext w s) (hp : s.phase = .busy) (hw : w.toNat % 16 ≠ 0) :
      HostMove s ((begun s).setIe (w.getLsbD 8)).drop
  | acknowledge {w : Word} (hc : StatusWriteNext w s) : HostMove s ((begun s).acknowledge w)
  | storeInput (hi : InputWriteNext s) (hp : s.phase = .idle) (secretLen : BitVec 16) (secret : Memory) (tslice : Word) :
      HostMove s { begun s with secretLen, secret, tslice }
  | dropInput (hi : InputWriteNext s) (hp : s.phase = .busy) : HostMove s (begun s).drop
  | other (hn : NoWriteNext s) (busRdata : Option Word) (busErr : Bool) (draws : Nat) :
      HostMove s { begun s with busRdata, busErr, draws }

theorem hostMove_of_issue {w : Word} {s : State} (hc : CommandNext w s) (op : Op) (hw : w.toNat % 16 = op.code.toNat) :
    HostMove s (issue (w.getLsbD 8) (State.start op) (begun s)) := by
  rcases State.unlessBusy_cases (State.start op) ((begun s).setIe (w.getLsbD 8)) with ⟨hp, e⟩ | ⟨hp, e⟩
  all_goals rw [issue, e]
  · exact .start hc hp op hw
  · exact .dropCommand hc hp (by cases op <;> simp [hw, Op.code])

theorem hostMove_of_ctrlWrite {w : Word} {s u : State} (hc : CommandNext w s) (h : ctrlWrite w (begun s) = .next u) :
    HostMove s u := by
  rw [ctrlWrite_eq] at h
  cases h
  split
  next h0 => exact .nop hc h0
  next h0 =>
    split
    next h1 => exact hostMove_of_issue hc .decode h1
    next h1 =>
      split
      next h2 => exact hostMove_of_issue hc .generate h2
      next h2 =>
        rcases rejectReserved_cases (opField w) (w.getLsbD 8) (begun s) with ⟨hp, e⟩ | ⟨hp, e⟩
        all_goals rw [e]
        · exact .reject hc hp (by omega)
        · exact .dropCommand hc hp h0

/-- A write to an input is guarded, and stores nothing but inputs (R63). -/
theorem memWrite_input {off : BitVec 10} (h : InputOffset off) (v : Word) (s : State) :
    ∃ f : State → State, memWrite off v s = .next (s.unlessBusy f) ∧
      ∃ secretLen secret tslice, f s = { s with secretLen, secret, tslice } := by
  rcases h with rfl | rfl | ⟨h4, h1, h2⟩
  · exact ⟨_, memWrite_secretLen v s, _, _, _, rfl⟩
  · exact ⟨_, memWrite_tslice v s, _, _, _, rfl⟩
  · obtain ⟨m, hm, -, -⟩ := State.setSecretWord_eq (off.toNat - 0x100) v s
    exact ⟨_, memWrite_secret h4 h1 h2 v s, _, _, _, hm⟩

/-- A write anywhere else raises at most a bus error (R63, R64). -/
theorem memWrite_elsewhere {off : BitVec 10} (hc : off ≠ 0x008) (hs : off ≠ 0x00C) (hin : ¬ InputOffset off) {v : Word}
    {s t : State} (h : memWrite off v s = .next t) : ∃ busErr, t = { s with busErr } := by
  rcases memWrite_cases h with ⟨-, rfl⟩ | ⟨-, hl, -⟩ | ⟨h4, -, rfl⟩
  · exact ⟨true, rfl⟩
  · exact absurd ((locate_eq_ctrl off).mp hl) hc
  · have hloc : locate off ≠ .secretLen ∧ locate off ≠ .tslice ∧ ∀ j, locate off ≠ .secretWord j :=
      ⟨fun hl => hin (.inl ((locate_eq_secretLen off).mp hl)), fun hl => hin (.inr (.inl ((locate_eq_tslice off).mp hl))),
        fun _ hl => hin (.inr (.inr ⟨h4, range_of_locate_secret hl⟩))⟩
    obtain ⟨hlen, hts, hsec⟩ := hloc
    rcases plainWrite_cases (locate off) v s with
      ⟨hl, -⟩ | ⟨-, ⟨hl, -⟩ | ⟨hl, -⟩ | ⟨j, hl, -⟩⟩ | ⟨-, hl | hl | ⟨j, hl⟩, -⟩ | e
    · exact absurd ((locate_eq_status off).mp hl) hs
    · exact absurd hl hlen
    · exact absurd hl hts
    · exact absurd hl (hsec j)
    · exact absurd hl hlen
    · exact absurd hl hts
    · exact absurd hl (hsec j)
    · exact ⟨s.busErr, e⟩

theorem hostMove_of_memWrite {off : BitVec 10} {s u : State} (hw : WritesAt (nextCycle s).1 off)
    (h : memWrite off (nextCycle s).1.wdata (begun s) = .next u) : HostMove s u := by
  by_cases hc : off = 0x008
  · subst hc
    exact hostMove_of_ctrlWrite ⟨hw, rfl⟩ h
  by_cases hs : off = 0x00C
  · subst hs
    rw [memWrite_status] at h
    cases h
    exact .acknowledge ⟨hw, rfl⟩
  by_cases hin : InputOffset off
  · obtain ⟨f, hf, l, m, ts, hfs⟩ := memWrite_input hin (nextCycle s).1.wdata (begun s)
    rw [hf] at h
    cases h
    rcases State.unlessBusy_cases f (begun s) with ⟨hp, e⟩ | ⟨hp, e⟩
    all_goals rw [e]
    · rw [hfs]
      exact .storeInput ⟨off, hw, hin⟩ hp l m ts
    · exact .dropInput ⟨off, hw, hin⟩ hp
  · obtain ⟨busErr, rfl⟩ := memWrite_elsewhere hc hs hin h
    exact .other (noWriteNext_of_offset fun off' hw' => by rw [hw'.unique hw]; exact ⟨hc, hs, hin⟩) ..

/-- A read changes only the bus outputs and the count of free values (R70). -/
theorem memRead_eq_with (off : BitVec 10) (s : State) :
    ∃ busRdata busErr draws, memRead off s = { s with busRdata, busErr, draws } := by
  rcases memRead_cases off s with ⟨-, e⟩ | ⟨-, -, -, e⟩ | ⟨-, -, e⟩
  all_goals exact ⟨_, _, _, e⟩

theorem hostMove_of_access {s u : State} (hr : (nextCycle s).1.rstN = true)
    (h : access (nextCycle s).1 (begun s) = .next u) : HostMove s u := by
  rcases access_cases h with ⟨hsel, rfl⟩ | ⟨hsel, hwr, hw⟩ | ⟨-, hwr, rfl⟩
  · have hn : NoWriteNext s := noWriteNext_of_offset fun _ hw => absurd (hsel.symm.trans hw.2.1) Bool.false_ne_true
    exact .other hn ..
  · exact hostMove_of_memWrite ⟨hr, hsel, hwr, rfl⟩ hw
  · have hn : NoWriteNext s := noWriteNext_of_offset fun _ hw => absurd (hwr.symm.trans hw.2.2.1) Bool.false_ne_true
    obtain ⟨r, b, d, e⟩ := memRead_eq_with (nextCycle s).1.addr (begun s)
    rw [e]
    exact .other hn r b d

/-! ### What a step does, by its kind -/

/-- Everything a step can do, said in the kinds of step: a reset; or the host's move, and then a completion or nothing. -/
theorem step_kinds {s t : State} (h : step s = .next t) :
    (ResetNext s ∧ t = resetCycle (nextCycle s).1 (begun s)) ∨
    (¬ ResetNext s ∧ ∃ u, HostMove s u ∧ (CompletionNext s ∧ t = u.complete ∨ ¬ CompletionNext s ∧ t = u)) := by
  obtain ⟨c, rest, hn, hc⟩ := step_cases h
  have hb : s.beginCycle c rest = begun s := by rw [begun, hn]
  rw [hb] at hc
  obtain rfl : (nextCycle s).1 = c := by rw [hn]
  rcases hc with ⟨hr, rfl⟩ | ⟨hr, u, ha, rfl⟩
  · exact .inl ⟨hr, rfl⟩
  · have hnr : ¬ ResetNext s := fun h' => absurd (h'.symm.trans hr) Bool.false_ne_true
    refine .inr ⟨hnr, u, hostMove_of_access hr ha, ?_⟩
    rw [completionNext_iff]
    rcases State.engine_cases s.phase (nextCycle s).1.finish u with ⟨hp, e⟩ | ⟨hp, hf, e⟩ | ⟨hp, hf, e⟩
    · exact .inr ⟨by simp [hp], e⟩
    · exact .inl ⟨⟨hr, hp, hf⟩, e⟩
    · exact .inr ⟨by simp [hf], e⟩

/-! ### The registers after the host's move -/

/-- The host's move takes the cycle from the schedule. -/
theorem HostMove.inputs_eq {s u : State} (h : HostMove s u) : u.inputs = (nextCycle s).2 := by
  cases h
  all_goals rfl

theorem opCode_eq_one_or_two (op : Op) : op.code.toNat = 1 ∨ op.code.toNat = 2 := by cases op <;> decide

/-- DROPPED after the host's move (R30). -/
theorem HostMove.dropped_spec {s u : State} (h : HostMove s u) :
    (DiscardNext s → u.dropped = true) ∧ (ClearNext 2 s → u.dropped = false) ∧
    (¬ DiscardNext s → ¬ ClearNext 2 s → u.dropped = s.dropped) := by
  cases h with
  | nop hc hw => simp [hc.discardNext_iff, hc.not_clearNext, hw]
  | start hc hp op hw => simp [hc.discardNext_iff, hc.not_clearNext, hp, State.start]
  | reject hc hp hw => simp [hc.discardNext_iff, hc.not_clearNext, hp]
  | dropCommand hc hp hw => simp [hc.discardNext_iff, hc.not_clearNext, hp, hw]
  | acknowledge hc => simp +contextual [hc.not_discardNext, hc.clearNext_iff]
  | storeInput hi hp => simp [hi.discardNext_iff, hi.not_clearNext, hp]
  | dropInput hi hp => simp [hi.discardNext_iff, hi.not_clearNext, hp]
  | other hn => simp [hn.not_discardNext, hn.not_clearNext]

/-- The host's move starts a command, rejects one, or leaves the phase, ERRCODE and LASTOP, and then DONE too unless it clears it
(R27 to R32, R102, R105). -/
theorem HostMove.command_cases {s u : State} (h : HostMove s u) :
    (∃ w op, CommandNext w s ∧ StartNext s ∧ ¬ RejectionNext s ∧ w.toNat % 16 = op.code.toNat ∧
      u = ((begun s).setIe (w.getLsbD 8)).start op) ∨
    (∃ w, CommandNext w s ∧ RejectionNext s ∧ ¬ StartNext s ∧
      u = State.report Err.illegalCommand.code { (begun s).setIe (w.getLsbD 8) with lastop := opField w }) ∨
    (¬ StartNext s ∧ ¬ RejectionNext s ∧ u.phase = s.phase ∧ u.errcode = s.errcode ∧ u.lastop = s.lastop ∧
      (ClearNext 1 s → u.done = false) ∧ (¬ ClearNext 1 s → u.done = s.done)) := by
  cases h with
  | @start w hc hp op hw =>
    have hop := opCode_eq_one_or_two op
    have hs : StartNext s := hc.startNext_iff.mpr ⟨hp, by omega⟩
    have hr : ¬ RejectionNext s := fun hr => by have := (hc.rejectionNext_iff.mp hr).2; omega
    exact .inl ⟨w, op, hc, hs, hr, hw, rfl⟩
  | @reject w hc hp hw =>
    have hs : ¬ StartNext s := fun hs => by have := (hc.startNext_iff.mp hs).2; omega
    exact .inr (.inl ⟨w, hc, hc.rejectionNext_iff.mpr ⟨hp, hw⟩, hs, rfl⟩)
  | nop hc hw =>
    have hs : ¬ StartNext s := by simp [hc.startNext_iff, hw]
    have hr : ¬ RejectionNext s := by simp [hc.rejectionNext_iff, hw]
    exact .inr (.inr ⟨hs, hr, rfl, rfl, rfl, fun hk => absurd hk (hc.not_clearNext 1), fun _ => rfl⟩)
  | dropCommand hc hp hw =>
    have hs : ¬ StartNext s := by simp [hc.startNext_iff, hp]
    have hr : ¬ RejectionNext s := by simp [hc.rejectionNext_iff, hp]
    exact .inr (.inr ⟨hs, hr, rfl, rfl, rfl, fun hk => absurd hk (hc.not_clearNext 1), fun _ => rfl⟩)
  | acknowledge hc =>
    obtain ⟨hs, hr⟩ := not_start_or_rejection_of_not_command hc.not_commandNext
    refine .inr (.inr ⟨hs, hr, rfl, rfl, rfl, ?_, ?_⟩)
    all_goals simp +contextual [hc.clearNext_iff]
  | storeInput hi | dropInput hi =>
    obtain ⟨hs, hr⟩ := not_start_or_rejection_of_not_command hi.not_commandNext
    exact .inr (.inr ⟨hs, hr, rfl, rfl, rfl, fun hk => absurd hk (hi.not_clearNext 1), fun _ => rfl⟩)
  | other hn =>
    obtain ⟨hs, hr⟩ := not_start_or_rejection_of_not_command hn.command
    exact .inr (.inr ⟨hs, hr, rfl, rfl, rfl, fun hk => absurd hk (hn.not_clearNext 1), fun _ => rfl⟩)

/-- IE after the host's move: a CTRL write stores it, and nothing else does (R26, R82). -/
theorem HostMove.ie_cases {s u : State} (h : HostMove s u) :
    (∃ w, CommandNext w s ∧ u.ie = w.getLsbD 8) ∨ ((∀ w, ¬ CommandNext w s) ∧ u.ie = s.ie) := by
  cases h with
  | nop hc | start hc | reject hc | dropCommand hc => exact .inl ⟨_, hc, rfl⟩
  | acknowledge hc => exact .inr ⟨hc.not_commandNext, rfl⟩
  | storeInput hi | dropInput hi => exact .inr ⟨hi.not_commandNext, rfl⟩
  | other hn => exact .inr ⟨hn.command, rfl⟩

/-- The host's move leaves the parameters and the results (R109). -/
theorem HostMove.results_eq {s u : State} (h : HostMove s u) :
    u.params = s.params ∧ u.keyLen = s.keyLen ∧ u.key = s.key ∧ u.gen = s.gen := by
  cases h
  all_goals exact ⟨rfl, rfl, rfl, rfl⟩

/-- While BUSY the host's move leaves the phase, LASTOP, the running command and the inputs (R74, R106). -/
theorem HostMove.busy_frame {s u : State} (h : HostMove s u) (hp : s.phase = .busy) :
    u.phase = .busy ∧ u.lastop = s.lastop ∧ u.curOp = s.curOp ∧ u.snap = s.snap ∧ u.secretLen = s.secretLen ∧
      u.secret = s.secret ∧ u.tslice = s.tslice := by
  cases h with
  | start _ hi | reject _ hi | storeInput _ hi => simp [hi] at hp
  | _ => exact ⟨hp, rfl, rfl, rfl, rfl, rfl, rfl⟩

/-! ### What a completion leaves -/

/-- A completion sets DONE, and leaves IE, DROPPED and the inputs (R103, R109). -/
theorem complete_host_registers (s : State) :
    s.complete.done = true ∧ s.complete.ie = s.ie ∧ s.complete.dropped = s.dropped ∧ s.complete.secretLen = s.secretLen ∧
      s.complete.secret = s.secret ∧ s.complete.tslice = s.tslice := by
  rcases s.complete_cases with ⟨-, k, -, e⟩ | ⟨-, e', -, e⟩ | ⟨-, k, -, e⟩ | ⟨-, e', -, e⟩
  all_goals
    rw [e]
    exact ⟨rfl, rfl, rfl, rfl, rfl, rfl⟩

/-- DECODE leaves the results of GENERATE, and GENERATE those of DECODE (R109). -/
theorem complete_other_results (s : State) :
    (s.curOp = .decode → s.complete.gen = s.gen) ∧
    (s.curOp = .generate → s.complete.keyLen = s.keyLen ∧ s.complete.key = s.key) := by
  rcases s.complete_cases with ⟨hop, k, -, e⟩ | ⟨hop, e', -, e⟩ | ⟨hop, k, -, e⟩ | ⟨hop, e', -, e⟩
  all_goals
    rw [e]
    simp [hop]

/-! ### Steps, and runs -/

theorem exists_memWrite (off : BitVec 10) (v : Word) (s : State) : ∃ t, memWrite off v s = .next t := by
  unfold memWrite
  split
  · exact ⟨_, rfl⟩
  · split
    · exact ⟨_, ctrlWrite_eq v s⟩
    · exact ⟨_, rfl⟩

theorem exists_access (c : ClockCycle) (s : State) : ∃ t, access c s = .next t := by
  unfold access
  split
  · split
    · exact exists_memWrite _ _ s
    · exact ⟨_, rfl⟩
  · exact ⟨_, rfl⟩

theorem exists_runCycle (c : ClockCycle) (rest : List ClockCycle) (s : State) : ∃ t, runCycle c rest s = .next t := by
  obtain ⟨u, hu⟩ := exists_access c (s.beginCycle c rest)
  unfold runCycle
  rw [hu]
  split
  · exact ⟨_, onNext_next u _⟩
  · exact ⟨_, rfl⟩

/-- Every step answers a next state (R11). -/
theorem exists_step (s : State) : ∃ t, step s = .next t := by
  unfold step
  split
  · exact exists_runCycle _ _ s
  · exact exists_runCycle _ _ s

/-- IE after a step that is no reset: that of the CTRL write of the step, or as it was (R26, R82). -/
theorem ie_of_step {s t : State} (h : step s = .next t) (hr : ¬ ResetNext s) :
    (∃ w, CommandNext w s ∧ t.ie = w.getLsbD 8) ∨ ((∀ w, ¬ CommandNext w s) ∧ t.ie = s.ie) := by
  rcases step_kinds h with ⟨hr', -⟩ | ⟨-, u, hu, hc⟩
  · exact absurd hr' hr
  have ht : t.ie = u.ie := by
    obtain ⟨-, rfl⟩ | ⟨-, rfl⟩ := hc
    · exact (complete_host_registers u).2.1
    · rfl
  rw [ht]
  exact hu.ie_cases

/-- Short of reset a busy block completes in its next step, or goes on, busy, to the rest of the schedule (R104). -/
theorem step_of_busy {s t : State} (h : step s = .next t) (hp : s.phase = .busy) (hr : ¬ ResetNext s) :
    (t.phase = .idle ∧ t.done = true ∧ t.lastop = s.lastop) ∨
    (¬ CompletionNext s ∧ t.phase = .busy ∧ t.lastop = s.lastop ∧ t.inputs = (nextCycle s).2) := by
  rcases step_kinds h with ⟨hr', -⟩ | ⟨-, u, hu, hc⟩
  · exact absurd hr' hr
  · obtain ⟨hphase, hlast, -⟩ := hu.busy_frame hp
    obtain ⟨-, rfl⟩ | ⟨hc, rfl⟩ := hc
    · exact .inl ⟨u.complete_phase, (complete_host_registers u).1, u.complete_lastop.trans hlast⟩
    · exact .inr ⟨hc, hphase, hlast, hu.inputs_eq⟩

/-- R281: a busy block whose schedule holds no reset completes, at the latest in the step after the schedule. -/
theorem run_completes (l : List ClockCycle) : ∀ s : State, s.inputs = l → s.phase = .busy → (∀ c ∈ l, c.rstN = true) →
    ∃ n t, n ≤ l.length + 1 ∧ Host.Core.run Sys2Proof.core n s = .next t ∧ t.phase = .idle ∧ t.done = true ∧
      t.lastop = s.lastop := by
  induction l with
  | nil =>
    intro s hi hp _
    obtain ⟨t, h⟩ := exists_step s
    have hn : nextCycle s = (quietCycle s, []) := by simp [nextCycle, hi]
    have hr : ¬ ResetNext s := by simp [ResetNext, hn, quietCycle]
    have hc : CompletionNext s := completionNext_iff.mpr (by simp [hn, hp, quietCycle])
    rcases step_of_busy h hp hr with ht | ⟨hno, -⟩
    · exact ⟨1, t, le_refl _, run_succ_of_step 0 h, ht⟩
    · exact absurd hc hno
  | cons c rest ih =>
    intro s hi hp hrst
    obtain ⟨t, h⟩ := exists_step s
    have hn : nextCycle s = (c, rest) := by simp [nextCycle, hi]
    have hr : ¬ ResetNext s := by simp [ResetNext, hn, hrst c]
    rcases step_of_busy h hp hr with ht | ⟨-, hpt, hlast, hit⟩
    · exact ⟨1, t, by simp, run_succ_of_step 0 h, ht⟩
    · obtain ⟨n, t', hle, hrun, hp', hd', hl'⟩ :=
        ih t (by rw [hit, hn]) hpt fun c' hc' => hrst c' (List.mem_cons_of_mem c hc')
      exact ⟨n + 1, t', by simpa using hle, (run_succ_of_step n h).trans hrun, hp', hd', hl'.trans hlast⟩

end Sys2Proof.Safety

open Sys2Proof Sys2Proof.Machine Sys2Proof.Safety

/-- Settles O22: the host's effects, a completion and a reset each keep the form of the buffers. -/
theorem everyStepKeepsTheBuffersCanonical : Obligations.EveryStepKeepsTheBuffersCanonical := by
  intro s t hs h
  exact step_preserves BuffersOk.host (fun _ hb => hb.complete) (fun _ => BuffersOk.resetBlock _) h hs

/-- Settles O19: by induction on the schedule, every step completing the command or leaving it busy with the rest. -/
theorem aRunningCommandCompletesUnlessReset : Obligations.ARunningCommandCompletesUnlessReset :=
  fun s hp hr => run_completes s.inputs s rfl hp hr

/-- Settles O23: the host's move leaves the results, and a completion those of the other command. -/
theorem resultsChangeOnlyAtTheirOwnCompletionOrReset : Obligations.ResultsChangeOnlyAtTheirOwnCompletionOrReset := by
  intro s t h hnr
  rcases step_kinds h with ⟨hr, -⟩ | ⟨-, u, hu, hc⟩
  · exact absurd hr hnr
  obtain ⟨hparams, hlen, hkey, hgen⟩ := hu.results_eq
  obtain ⟨hc, rfl⟩ | ⟨-, rfl⟩ := hc
  · obtain ⟨-, -, hop, -⟩ := hu.busy_frame hc.busy
    obtain ⟨hdec, hgenr⟩ := complete_other_results u
    constructor
    · intro hnd
      have hg : CompletesNext .generate s := hc.resolve_left hnd
      obtain ⟨hl, hk⟩ := hgenr (hop.trans hg.2.2.1)
      exact ⟨hl.trans hlen, fun a => by simp only [State.keyByte, State.complete_params, hk, hparams, hkey]⟩
    · intro hng
      have hd : CompletesNext .decode s := hc.resolve_right hng
      exact (hdec (hop.trans hd.2.2.1)).trans hgen
  · exact ⟨fun _ => ⟨hlen, fun a => by simp only [State.keyByte, hparams, hkey]⟩, fun _ => hgen⟩

/-- Settles O24: DROPPED after a reset, and after the host's move, which a completion keeps. -/
theorem droppedIsSticky : Obligations.DroppedIsSticky := by
  intro s t h
  rcases step_kinds h with ⟨hr, rfl⟩ | ⟨hr, u, hu, hc⟩
  · have hn := hr.noWriteNext
    rw [resetCycle_eq]
    exact ⟨fun hd => absurd hd hn.not_discardNext, fun _ => rfl, fun _ hr' => absurd hr hr'⟩
  · have ht : t.dropped = u.dropped := by
      obtain ⟨-, rfl⟩ | ⟨-, rfl⟩ := hc
      · exact (complete_host_registers u).2.2.1
      · rfl
    obtain ⟨hset, hclear, hkeep⟩ := hu.dropped_spec
    rw [ht]
    exact ⟨hset, fun hrc => hclear (hrc.resolve_left hr), fun hd _ hk => hkeep hd hk⟩

/-- Settles O25: DONE after a reset, after the host's move, and after a completion, which sets it. -/
theorem doneIsSetAndClearedOnlyAsTheSpecSays : Obligations.DoneIsSetAndClearedOnlyAsTheSpecSays := by
  intro s t h
  rcases step_kinds h with ⟨hr, rfl⟩ | ⟨hr, u, hu, ⟨hc, rfl⟩ | ⟨hc, rfl⟩⟩
  · have hno := not_start_or_rejection_of_not_command hr.noWriteNext.command
    rw [resetCycle_eq]
    exact ⟨fun hcr => absurd hcr (not_or.mpr ⟨hr.not_completionNext, hno.2⟩), fun _ => rfl, fun _ _ hr' => absurd hr hr'⟩
  · obtain ⟨hs, -⟩ := hc.not_start_or_rejection
    refine ⟨fun _ => (complete_host_registers u).1, ?_, fun hc' => absurd hc hc'⟩
    rintro (hr' | hs' | ⟨-, hc'⟩)
    · exact absurd hr' hr
    · exact absurd hs' hs
    · exact absurd hc hc'
  · rcases hu.command_cases with
      ⟨w, op, -, hs, hrej, -, e⟩ | ⟨w, hcmd, hrej, hs, e⟩ | ⟨hs, hrej, -, -, -, hclear, hkeep⟩
    · simp [hc, hrej, hs, e]
    · simp [hc, hr, hrej, hs, e, hcmd.not_clearNext]
    · simpa [hc, hr, hs, hrej] using ⟨hclear, hkeep⟩

/-- Settles O26: the three after a reset, after a completion, and after each kind of the host's move. -/
theorem busyErrcodeAndLastopAreWrittenOnlyByCommands : Obligations.BusyErrcodeAndLastopAreWrittenOnlyByCommands := by
  intro s t h
  rcases step_kinds h with ⟨hr, rfl⟩ | ⟨hr, u, hu, ⟨hc, rfl⟩ | ⟨hc, rfl⟩⟩
  · have hcmd := hr.noWriteNext.command
    obtain ⟨hs, hrej⟩ := not_start_or_rejection_of_not_command hcmd
    rw [resetCycle_eq]
    simp [hr, hs, hrej, hr.not_completionNext]
  · obtain ⟨hs, hrej⟩ := hc.not_start_or_rejection
    obtain ⟨-, hlast, -, hsnap, -⟩ := hu.busy_frame hc.busy
    obtain ⟨hparams, -⟩ := hu.results_eq
    have hcode := errcode_complete u
    rw [hparams, hsnap] at hcode
    simp +contextual [hr, hs, hrej, hc, hlast, hcode]
  · rcases hu.command_cases with
      ⟨w, op, hcmd, hs, hrej, hop, e⟩ | ⟨w, hcmd, hrej, hs, e⟩ | ⟨hs, hrej, hp, hcode, hlast, -⟩
    · have hlast : ∀ w', CommandNext w' s → op.code.toNat = w'.toNat % 16 := fun w' hc' => by rw [hcmd.unique hc', hop]
      simpa [hr, hc, hrej, hs, e] using hlast
    · have hlast : ∀ w', CommandNext w' s → (opField w).toNat = w'.toNat % 16 := fun w' hc' => by
        rw [hcmd.unique hc', toNat_opField]
      simpa [hr, hc, hrej, hs, e, Err.code, hrej.1] using hlast
    · simp [hr, hc, hs, hrej, hp, hcode, hlast]

/-- Settles O27: irq is IE and DONE; IE follows the last CTRL write, and DONE is O25's. -/
theorem irqRisesAndFallsOnlyAsTheSpecSays : Obligations.IrqRisesAndFallsOnlyAsTheSpecSays := by
  intro s t h
  obtain ⟨hset, hclear, hkeep⟩ := doneIsSetAndClearedOnlyAsTheSpecSays s t h
  constructor
  · intro h0 h1
    obtain ⟨hie, hdone⟩ : t.ie = true ∧ t.done = true := by simpa [State.irq] using h1
    by_contra hno
    obtain ⟨hnc, hnrej, hncmd⟩ : ¬ CompletionNext s ∧ ¬ RejectionNext s ∧
        ¬ ∃ w, CommandNext w s ∧ w.getLsbD 8 = true := by
      simpa only [not_or] using hno
    have hnot : ¬ (ResetNext s ∨ StartNext s ∨ (ClearNext 1 s ∧ ¬ CompletionNext s)) := fun hx => by
      simp [hclear hx] at hdone
    obtain ⟨hnr, hns, hncl⟩ : ¬ ResetNext s ∧ ¬ StartNext s ∧ ¬ ClearNext 1 s := by simpa [hnc] using hnot
    have hsdone : s.done = true := (hkeep hnc hnrej hnr hns hncl).symm.trans hdone
    rcases ie_of_step h hnr with ⟨w, hw, e⟩ | ⟨-, e⟩
    · exact hncmd ⟨w, hw, e ▸ hie⟩
    · simp [State.irq, hsdone, ← e, hie] at h0
  · intro h1 h0
    obtain ⟨hsie, hsdone⟩ : s.ie = true ∧ s.done = true := by simpa [State.irq] using h1
    by_contra hno
    obtain ⟨hnr, hns, hncl, hncmd⟩ : ¬ ResetNext s ∧ ¬ StartNext s ∧ ¬ ClearNext 1 s ∧
        ¬ ∃ w, CommandNext w s ∧ w.getLsbD 8 = false := by
      simpa only [not_or] using hno
    have hie : t.ie = true := by
      rcases ie_of_step h hnr with ⟨w, hw, e⟩ | ⟨-, e⟩
      · exact e.trans (by simpa using fun hb => hncmd ⟨w, hw, hb⟩)
      · exact e.trans hsie
    have hdone : t.done = true := by
      by_cases hcr : CompletionNext s ∨ RejectionNext s
      · exact hset hcr
      · obtain ⟨hnc, hnrej⟩ := not_or.mp hcr
        exact (hkeep hnc hnrej hnr hns hncl).trans hsdone
    simp [State.irq, hie, hdone] at h0

/-- Settles O28: neither the host's move on a busy block nor a completion writes the inputs or LASTOP. -/
theorem inputsAreFixedWhileBusy : Obligations.InputsAreFixedWhileBusy := by
  intro s t h hp hnr
  rcases step_kinds h with ⟨hr, -⟩ | ⟨-, u, hu, hc⟩
  · exact absurd hr hnr
  obtain ⟨-, hlast, -, -, hlen, hsec, hts⟩ := hu.busy_frame hp
  obtain ⟨hparams, -⟩ := hu.results_eq
  obtain ⟨-, rfl⟩ | ⟨-, rfl⟩ := hc
  · obtain ⟨-, -, -, hlen', hsec', hts'⟩ := complete_host_registers u
    refine ⟨hlen'.trans hlen, hts'.trans hts, fun a => ?_, u.complete_lastop.trans hlast⟩
    simp only [State.secretByte, State.complete_params, hparams, hsec', hsec]
  · exact ⟨hlen, hts, fun a => by simp only [State.secretByte, hparams, hsec], hlast⟩
end

section
/-! The proofs of the family 10_state about registers: what an idle block's read answers, the layouts of STATUS and PARAM, and the
byte lanes of the SECRET window and of CODE_STR. -/

namespace Sys2Proof.Machine

open Sys2Proof Sys2Proof.Safety

/-! ### What an idle block's read answers -/

/-- A read by an idle block answers what the place holds (R62). -/
theorem busRdata_memRead_of_idle {s : State} (hp : s.phase = .idle) {off : BitVec 10} (h4 : off.toNat % 4 = 0) {l : Loc}
    (hl : locate off = l) : (memRead off s).busRdata = some (s.readLoc l) := by
  rcases memRead_cases off s with ⟨hn, -⟩ | ⟨-, hb, -⟩ | ⟨-, -, e⟩
  · exact absurd h4 hn
  · simp [hp] at hb
  · rw [e, hl, State.answer_busRdata]

theorem ctrlWord_eq (s : State) : s.ctrlWord = if s.ie then 0x100 else 0 := by
  unfold State.ctrlWord bit
  cases s.ie <;> rfl

/-- The offset of word j of a window of 64 words that begins at `base`. -/
theorem toNat_windowOffset {base j : Nat} (hb : base ≤ 0x200) (hj : j < 64) :
    (BitVec.ofNat 10 (base + 4 * j)).toNat = base + 4 * j := by
  rw [BitVec.toNat_ofNat]
  omega

/-- The SECRET window lies from 0x100 on (R23). -/
theorem locate_secretWindow {j : Nat} (hj : j < 64) : locate (BitVec.ofNat 10 (0x100 + 4 * j)) = .secretWord (4 * j) := by
  have h := toNat_windowOffset (base := 0x100) (by omega) hj
  rw [locate_secret _ (by omega) (by omega), h, Nat.add_sub_cancel_left]

/-- The KEY window lies from 0x200 on (R23). -/
theorem locate_keyWindow {j : Nat} (hj : j < 64) : locate (BitVec.ofNat 10 (0x200 + 4 * j)) = .keyWord (4 * j) := by
  have h := toNat_windowOffset (base := 0x200) (by omega) hj
  rw [locate_key _ (by omega) (by omega), h, Nat.add_sub_cancel_left]

/-! ### The layouts of STATUS and PARAM -/

theorem bit_le_one (b : Bool) : bit b ≤ 1 := by cases b <;> decide

theorem bit_false : bit false = 0 := rfl

theorem decide_bit_eq_one (b : Bool) : decide (bit b = 1) = b := by cases b <;> rfl

/-- STATUS as a number: every field fits its place (R27). -/
theorem toNat_statusWord (s : State) : s.statusWord.toNat =
    bit s.busy + bit s.done * 2 + bit s.dropped * 4 + s.errcode.toNat * 16 + s.lastop.toNat * 256 := by
  have hb := bit_le_one s.busy
  have hd := bit_le_one s.done
  have hr := bit_le_one s.dropped
  have he := s.errcode.isLt
  have hl := s.lastop.isLt
  rw [State.statusWord, BitVec.toNat_ofNat]
  omega

/-- A bit of a word by its digit. -/
theorem getLsbD_eq_of_bit {w : Word} {i : Nat} {b : Bool} (h : w.toNat / 2 ^ i % 2 = bit b) : w.getLsbD i = b := by
  rw [← BitVec.testBit_toNat, Nat.testBit_eq_decide_div_mod_eq, h, decide_bit_eq_one]

/-- A field of a word by its digits. -/
theorem toNat_extractLsb'_eq {n i k x : Nat} {w : BitVec n} (h : w.toNat / 2 ^ i % 2 ^ k = x) :
    (w.extractLsb' i k).toNat = x := by
  rw [BitVec.extractLsb'_toNat, Nat.shiftRight_eq_div_pow, h]

theorem extractLsb'_eq_of_toNat {n i k : Nat} {w : BitVec n} {v : BitVec k} (h : w.toNat / 2 ^ i % 2 ^ k = v.toNat) :
    w.extractLsb' i k = v :=
  BitVec.eq_of_toNat_eq (toNat_extractLsb'_eq h)

theorem extractLsb'_eq_ofNat {n i k : Nat} {w : BitVec n} (x : Nat) (h : w.toNat / 2 ^ i % 2 ^ k = x) :
    w.extractLsb' i k = BitVec.ofNat k x :=
  BitVec.eq_of_toNat_eq (by rw [toNat_extractLsb'_eq rfl, BitVec.toNat_ofNat, ← h, Nat.mod_mod])

theorem busy_eq_decide (s : State) : s.busy = decide (s.phase = .busy) := by
  unfold State.busy
  cases s.phase <;> rfl

/-- PARAM as a number, where its fields fit (R25). -/
theorem toNat_paramWord {p : Params} (h : p.Legal) :
    (paramWord p).toNat = p.secretMax + keyMax p * 65536 + 6 * 16777216 := by
  have hmax : p.secretMax ≤ 256 := h.2
  have hkey := keyMax_le_of_legal h
  rw [paramWord, BitVec.toNat_ofNat]
  omega

/-! ### The lanes of the SECRET window and of CODE_STR -/

/-- A byte of SECRET after a word write: the lane it lies in, if it exists, or as it was (R34, R63). -/
theorem secretByte_setSecretWord {s : State} (h : s.secret.wf = true) (j : Nat) (v : Word) (a : Nat) :
    (s.setSecretWord j v).secretByte a =
      if j ≤ a ∧ a < j + 4 ∧ a < s.params.secretMax then byteOf v (a - j) else s.secretByte a := by
  have h0 := State.setSecretByte_wf h j (byteOf v 0)
  have h1 := State.setSecretByte_wf h0 (j + 1) (byteOf v 1)
  have h2 := State.setSecretByte_wf h1 (j + 2) (byteOf v 2)
  rw [State.setSecretWord, State.secretByte_setSecretByte h2, State.secretByte_setSecretByte h1,
    State.secretByte_setSecretByte h0, State.secretByte_setSecretByte h]
  simp only [State.setSecretByte_params]
  by_cases hin : j ≤ a ∧ a < j + 4
  · obtain ⟨k, hk, rfl⟩ : ∃ k < 4, a = j + k := ⟨a - j, by omega, by omega⟩
    interval_cases k <;> simp
  · have h0 : a ≠ j ∧ a ≠ j + 1 ∧ a ≠ j + 2 ∧ a ≠ j + 3 := by omega
    simp only [← and_assoc, hin, h0, false_and, if_false]

theorem byteOf_eq_ofNat (w : Word) (k : Nat) : byteOf w k = BitVec.ofNat 8 (w.toNat / 2 ^ (8 * k)) := by
  apply BitVec.eq_of_toNat_eq
  rw [toNat_byteOf, BitVec.toNat_ofNat]

/-- Lane i of CODE_STR0 is digit i (R224). -/
theorem byteOf_strWord0 (d : List Byte) {i : Nat} (hi : i < 4) : byteOf (strWord0 d) i = d.getD i 0 := by
  obtain ⟨h0, h1, h2, h3⟩ := byteOf_le32 (byteAt d 0) (byteAt d 1) (byteAt d 2) (byteAt d 3)
  interval_cases i
  · exact h0
  · exact h1
  · exact h2
  · exact h3

/-- Lanes 0 and 1 of CODE_STR1 are digits 4 and 5 (R224). -/
theorem extractLsb'_strWord1 (d : List Byte) {i : Nat} (hi : i < 2) :
    (strWord1 d).extractLsb' (8 * i) 8 = d.getD (4 + i) 0 := by
  obtain ⟨h0, h1, -⟩ := byteOf_le32 (byteAt d 4) (byteAt d 5) 0 0
  rw [strWord1, BitVec.extractLsb'_setWidth_of_le (by omega)]
  interval_cases i
  · exact h0
  · exact h1

end Sys2Proof.Machine

open Sys2Proof Sys2Proof.Machine Sys2Proof.Safety

/-- Settles O35: an aligned read by an idle block answers what the place at the offset holds. -/
theorem everyOffsetReadsAsTheRegisterMapSays : Obligations.EveryOffsetReadsAsTheRegisterMapSays := by
  refine ⟨toNat_le32, fun s hp => ?_⟩
  have read : ∀ (off : BitVec 10) (l : Loc), off.toNat % 4 = 0 → locate off = l →
      (memRead off s).busRdata = some (s.readLoc l) := fun off l h4 hl => busRdata_memRead_of_idle hp h4 hl
  have ctrl := read 0x008 .ctrl rfl rfl
  refine ⟨read 0x000 .id rfl rfl, read 0x004 .param rfl rfl, ?_, read 0x00C .status rfl rfl, read 0x010 .secretLen rfl rfl,
    read 0x014 .tslice rfl rfl, read 0x018 .tsUsed rfl rfl, read 0x01C .keyLen rfl rfl, read 0x020 .trunc rfl rfl,
    read 0x024 .code rfl rfl, read 0x028 .codeStr0 rfl rfl, read 0x02C .codeStr1 rfl rfl, read 0x030 .mac0 rfl rfl,
    read 0x034 .mac1 rfl rfl, read 0x038 .mac2 rfl rfl, read 0x03C .mac3 rfl rfl, read 0x040 .mac4 rfl rfl,
    fun j hj => read _ _ ?_ (locate_secretWindow hj), fun j hj => read _ _ ?_ (locate_keyWindow hj), fun off h4 hoff => ?_⟩
  · rw [← ctrlWord_eq]
    exact ctrl
  · rw [toNat_windowOffset (by omega) hj]
    omega
  · rw [toNat_windowOffset (by omega) hj]
    omega
  · exact read off .reserved h4 (locate_reserved off (hoff.imp_right And.left))

/-- Settles O39: the fields of STATUS as digits of its number. -/
theorem statusHasTheSpecsLayout : Obligations.StatusHasTheSpecsLayout := by
  intro s
  have hb := bit_le_one s.busy
  have hd := bit_le_one s.done
  have hr := bit_le_one s.dropped
  have he := s.errcode.isLt
  have hl := s.lastop.isLt
  have hw := toNat_statusWord s
  rw [← busy_eq_decide]
  refine ⟨getLsbD_eq_of_bit ?_, getLsbD_eq_of_bit ?_, getLsbD_eq_of_bit ?_, getLsbD_eq_of_bit (b := false) ?_,
    extractLsb'_eq_of_toNat ?_, extractLsb'_eq_of_toNat ?_, extractLsb'_eq_ofNat 0 ?_⟩
  · omega
  · omega
  · omega
  · rw [bit_false]
    omega
  · omega
  · omega
  · omega

/-- Settles O40: the fields of PARAM as digits of its number; its offset takes no write. -/
theorem paramHasTheSpecsLayout : Obligations.ParamHasTheSpecsLayout := by
  refine ⟨fun p hp => ?_, fun v s => rfl⟩
  have hmax : p.secretMax ≤ 256 := hp.2
  have hkey := keyMax_le_of_legal hp
  have hw := toNat_paramWord hp
  refine ⟨toNat_extractLsb'_eq ?_, extractLsb'_eq_ofNat 0 ?_, (toNat_extractLsb'_eq ?_ : _ = keyMax p),
    extractLsb'_eq_ofNat 6 ?_, extractLsb'_eq_ofNat 0 ?_, fun h => ?_⟩
  · omega
  · omega
  · omega
  · omega
  · omega
  · apply BitVec.eq_of_toNat_eq
    rw [hw, keyMax, h]
    rfl

/-- Settles O29: each value of the table, read from the reset state. -/
theorem resetGivesTheSpecsValues : Obligations.ResetGivesTheSpecsValues :=
  ⟨rfl, rfl, rfl, rfl, rfl, State.secretByte_of_secret_nil rfl, rfl, rfl, rfl, State.keyByte_of_key_nil rfl, rfl,
    Memory.read_nil, rfl⟩

/-- Settles O38: the write at STATUS's offset is the acknowledgement. -/
theorem aStatusWriteClearsOnlyTheFlagsItNames : Obligations.AStatusWriteClearsOnlyTheFlagsItNames := by
  intro v s
  have hclear : ∀ f b : Bool, (f && !b) = if b then false else f := by decide
  rw [memWrite_status, State.acknowledge, hclear, hclear]

/-- Settles O41: the guarded writes of an idle block, and the four lanes of a SECRET word. -/
theorem anIdleBlockStoresItsInputs : Obligations.AnIdleBlockStoresItsInputs := by
  intro v s hp
  refine ⟨?_, ?_, fun hwf j hj => ?_⟩
  · rw [memWrite_secretLen, State.unlessBusy_idle _ hp]
    rfl
  · rw [memWrite_tslice, State.unlessBusy_idle _ hp]
    rfl
  · have hoff := toNat_windowOffset (base := 0x100) (by omega) hj
    obtain ⟨m, hm, -, -⟩ := State.setSecretWord_eq (4 * j) v s
    refine ⟨s.setSecretWord (4 * j) v, ?_, by rw [hm], fun a => ?_⟩
    · rw [memWrite_secret (by omega) (by omega) (by omega), hoff, Nat.add_sub_cancel_left, State.unlessBusy_idle _ hp]
    · rw [secretByte_setSecretWord hwf, byteOf_eq_ofNat]

/-- Settles O60: the lanes of the two words that pack the digits of CODE. -/
theorem codeStrHoldsTheDigitsOfCode : Obligations.CodeStrHoldsTheDigitsOfCode := by
  rintro ts mac g rfl
  refine ⟨fun i hi => byteOf_strWord0 _ hi, fun i hi => extractLsb'_strWord1 _ hi, extractLsb'_eq_ofNat 0 ?_⟩
  have hlt := (genRegsOf ts mac).codeStr1.isLt
  rw [BitVec.toNat_setWidth]
  omega
end

section
/-! The proofs of the family 20_memory about single accesses: which of them raise a bus error, and what a read answers and keeps. -/

namespace Sys2Proof.Machine

open Sys2Proof Sys2Proof.Safety

/-! ### The bus error -/

/-- No command and no rejection is a bus error (R247). -/
theorem busErr_of_ctrlWrite {w : Word} {s t : State} (h : ctrlWrite w s = .next t) : t.busErr = s.busErr := by
  rcases ctrlWrite_cases h with ⟨i, -, he⟩ | ⟨op, ie, -, rfl⟩
  · rcases exec_cases he with ⟨ie, -, rfl⟩ | ⟨ie, op, -, -, rfl⟩ | ⟨ie, -, -, rfl⟩
    all_goals rfl
  · rcases rejectReserved_cases op ie s with ⟨-, e⟩ | ⟨-, e⟩
    all_goals simp [e]

/-- No write to an aligned place is a bus error, stored, dropped or ignored (R63, R71, R106). -/
theorem busErr_plainWrite (l : Loc) (v : Word) (s : State) : (plainWrite l v s).busErr = s.busErr := by
  rcases plainWrite_cases l v s with ⟨-, e⟩ | ⟨-, ⟨-, e⟩ | ⟨-, e⟩ | ⟨j, -, e⟩⟩ | ⟨-, -, e⟩ | e
  case inr.inl.inr.inr =>
    obtain ⟨m, hm, -, -⟩ := State.setSecretWord_eq j v s
    rw [e, hm]
  all_goals simp [e]

/-- A write raises the bus error exactly when it is misaligned (R64). -/
theorem busErr_of_memWrite {off : BitVec 10} {v : Word} {s t : State} (h : memWrite off v s = .next t) :
    t.busErr = true ↔ s.busErr = true ∨ off.toNat % 4 ≠ 0 := by
  rcases memWrite_cases h with ⟨hn, rfl⟩ | ⟨h4, -, hc⟩ | ⟨h4, -, rfl⟩
  · simp [hn]
  · simp [h4, busErr_of_ctrlWrite hc]
  · simp [h4, busErr_plainWrite]

/-- A read raises the bus error exactly when it is misaligned (R64). -/
theorem busErr_memRead (off : BitVec 10) (s : State) :
    (memRead off s).busErr = true ↔ s.busErr = true ∨ off.toNat % 4 ≠ 0 := by
  rcases memRead_cases off s with ⟨hn, e⟩ | ⟨h4, -, -, e⟩ | ⟨h4, -, e⟩
  · simp [e, hn]
  · simp [e, h4]
  · simp [e, h4]

/-- The access of a cycle raises the bus error exactly when one is presented and misaligned (R64). -/
theorem busErr_of_access {c : ClockCycle} {s t : State} (h : access c s = .next t) :
    t.busErr = true ↔ s.busErr = true ∨ c.sel = true ∧ c.addr.toNat % 4 ≠ 0 := by
  rcases access_cases h with ⟨hsel, rfl⟩ | ⟨hsel, -, hw⟩ | ⟨hsel, -, rfl⟩
  · simp [hsel]
  · simpa [hsel] using busErr_of_memWrite hw
  · simpa [hsel] using busErr_memRead c.addr s

/-- A completion leaves the bus error and the schedule. -/
theorem State.complete_busErr_inputs (s : State) : s.complete.busErr = s.busErr ∧ s.complete.inputs = s.inputs := by
  rcases s.complete_cases with ⟨-, k, -, e⟩ | ⟨-, e', -, e⟩ | ⟨-, k, -, e⟩ | ⟨-, e', -, e⟩
  all_goals
    rw [e]
    exact ⟨rfl, rfl⟩

@[simp] theorem State.complete_busErr (s : State) : s.complete.busErr = s.busErr := s.complete_busErr_inputs.1

@[simp] theorem State.complete_inputs (s : State) : s.complete.inputs = s.inputs := s.complete_busErr_inputs.2

@[simp] theorem State.engine_busErr (before : Phase) (finish : Bool) (s : State) :
    (s.engine before finish).busErr = s.busErr := by
  rcases State.engine_cases before finish s with ⟨-, e⟩ | ⟨-, -, e⟩ | ⟨-, -, e⟩
  all_goals simp [e]

/-- An aligned write to no writable register and outside the SECRET window is ignored (R63, R71). -/
theorem memWrite_ignored {off : BitVec 10} (h4 : off.toNat % 4 = 0) (hc : off ≠ 0x008) (hs : off ≠ 0x00C)
    (hin : ¬ InputOffset off) (v : Word) (s : State) : memWrite off v s = .next s := by
  obtain ⟨t, h⟩ := exists_memWrite off v s
  obtain ⟨busErr, rfl⟩ := memWrite_elsewhere hc hs hin h
  obtain rfl : busErr = s.busErr := Bool.eq_iff_iff.mpr (by simpa [h4] using busErr_of_memWrite h)
  exact h

/-! ### Reads -/

/-- What a place holds does not depend on the bus outputs or on the count of free values. -/
theorem State.readLoc_with_bus (s : State) (busRdata : Option Word) (busErr : Bool) (draws : Nat) (l : Loc) :
    State.readLoc { s with busRdata, busErr, draws } l = s.readLoc l := by
  cases l
  all_goals rfl

theorem memRead_misaligned {off : BitVec 10} (h : off.toNat % 4 ≠ 0) (s : State) :
    memRead off s = (s.answer 0).busError := if_pos h

/-- An idle block answers a second read of a place as the first (R70). -/
theorem busRdata_memRead_memRead {s : State} (hp : s.phase = .idle) (off : BitVec 10) :
    (memRead off (memRead off s)).busRdata = (memRead off s).busRdata := by
  by_cases h4 : off.toNat % 4 = 0
  · have hfirst := busRdata_memRead_of_idle hp h4 rfl
    obtain ⟨busRdata, busErr, draws, e⟩ := memRead_eq_with off s
    have hsecond := busRdata_memRead_of_idle (s := { s with busRdata, busErr, draws }) hp h4 rfl
    rw [hfirst, e, hsecond, State.readLoc_with_bus]
  · simp only [memRead_misaligned h4, State.busError_busRdata, State.answer_busRdata]

end Sys2Proof.Machine

open Sys2Proof Sys2Proof.Machine Sys2Proof.Safety

/-- Settles O6: every write, read, completion and reset cycle answers a next state. -/
theorem everyStepAnswersANextState : Obligations.EveryStepAnswersANextState := exists_step

/-- Settles O32: the misaligned write and read are the bus error, the read with data 0. -/
theorem aMisalignedAccessOnlyReportsABusError : Obligations.AMisalignedAccessOnlyReportsABusError :=
  fun _ _ s h => ⟨if_pos h, memRead_misaligned h s⟩

/-- Settles O33: the cycle begins without a bus error, its access raises one exactly when misaligned, the engine keeps it. -/
theorem aBusErrorMarksExactlyTheMisalignedAccesses : Obligations.ABusErrorMarksExactlyTheMisalignedAccesses := by
  intro s t c rest hi hr h
  obtain ⟨u, hu⟩ := exists_access c (s.beginCycle c rest)
  rw [step_of_access hi hr hu] at h
  cases h
  simpa using busErr_of_access hu

/-- Settles O34: the frame of a read, and the second read of an idle block. -/
theorem aReadHasNoSideEffect : Obligations.AReadHasNoSideEffect := by
  intro off s
  refine ⟨?_, fun hp => busRdata_memRead_memRead hp off⟩
  obtain ⟨busRdata, busErr, draws, e⟩ := memRead_eq_with off s
  rw [e]

/-- Settles O36: the two offset ranges are those of the result places. -/
theorem resultReadsAreUnspecifiedWhileBusy : Obligations.ResultReadsAreUnspecifiedWhileBusy := by
  intro off s hp h4
  rw [← isResult_locate off h4]
  rcases memRead_cases off s with ⟨hn, -⟩ | ⟨-, -, hres, e⟩ | ⟨-, hplain, e⟩
  · exact absurd h4 hn
  · exact ⟨fun _ => e, fun hnot => absurd hres hnot⟩
  · have hres : (locate off).isResult = false := hplain.resolve_left (by simp [hp])
    exact ⟨fun hyes => absurd (hres.symm.trans hyes) Bool.false_ne_true, fun _ => e⟩

/-- Settles O37: none of these offsets is CTRL's, STATUS's or an input's. -/
theorem writesToReadOnlyAndReservedPlacesAreIgnored : Obligations.WritesToReadOnlyAndReservedPlacesAreIgnored := by
  intro off v s h4 hoff
  have hne : ∀ a : BitVec 10, 0x004 < a.toNat → a.toNat < 0x018 → off ≠ a := by
    rintro a hlo hhi rfl
    omega
  have hin : ¬ InputOffset off := by
    rintro (h | h | ⟨-, h1, h2⟩)
    · exact hne 0x010 (by decide) (by decide) h
    · exact hne 0x014 (by decide) (by decide) h
    · omega
  exact memWrite_ignored h4 (hne 0x008 (by decide) (by decide)) (hne 0x00C (by decide) (by decide)) hin v s

end

section
/-! The proof of the family 20_memory about runs: what the host can touch of a busy block (`HostTouch`), and that a completion does
not depend on it. -/

namespace Sys2Proof.Safety

open Sys2Proof Sys2Proof.Machine

/-- `t` is `s` but for the fields the host can write while a command runs: IE, the two flags, the ports and the model's own
counters (R106). -/
inductive HostTouch (s : State) : State → Prop
  | mk (ie done dropped : Bool) (timeS : Seconds) (busRdata : Option Word) (busErr : Bool) (inputs : List ClockCycle)
      (draws : Nat) : HostTouch s { s with ie, done, dropped, timeS, busRdata, busErr, inputs, draws }

theorem HostTouch.trans {s t u : State} (h : HostTouch s t) (h' : HostTouch t u) : HostTouch s u := by
  cases h
  cases h'
  exact .mk ..

/-- The host's touch leaves the phase, the outcome, the results, the inputs, the parameters and ikey. -/
theorem HostTouch.frame {s t : State} (h : HostTouch s t) :
    t.phase = s.phase ∧ t.errcode = s.errcode ∧ t.lastop = s.lastop ∧ t.gen = s.gen ∧ t.keyLen = s.keyLen ∧ t.key = s.key ∧
      t.secretLen = s.secretLen ∧ t.secret = s.secret ∧ t.tslice = s.tslice ∧ t.params = s.params ∧ t.ikey = s.ikey := by
  cases h
  exact ⟨rfl, rfl, rfl, rfl, rfl, rfl, rfl, rfl, rfl, rfl, rfl⟩

/-- The host touches no more than that of a busy block (R74, R106). -/
theorem HostMove.touch {s u : State} (h : HostMove s u) (hp : s.phase = .busy) : HostTouch s u := by
  cases h with
  | start _ hi | reject _ hi | storeInput _ hi => simp [hi] at hp
  | _ => exact .mk ..

/-- What the host touched has no part in the results of a completion: the command, its snapshot and the parameters decide them
(R104). -/
theorem HostTouch.complete {s t : State} (h : HostTouch s t) : HostTouch s.complete t.complete := by
  cases h
  rcases s.complete_cases with ⟨hop, k, hd, e⟩ | ⟨hop, e', hd, e⟩ | ⟨hop, k, hd, e⟩ | ⟨hop, e', hd, e⟩
  all_goals
    rw [e]
    simp only [State.complete, hop, State.completeDecode, State.completeGenerate, generateSnap, hd, State.zeroIkey_loadIkey]
    exact .mk ..

/-- A GENERATE leaves no key in ikey (R44, R157, R159). -/
theorem ikey_complete_of_generate {s : State} (hop : s.curOp = .generate) : s.complete.ikey = [] := by
  rcases s.complete_cases with ⟨hd, -⟩ | ⟨hd, -⟩ | ⟨-, k, -, e⟩ | ⟨-, e', -, e⟩
  · simp [hop] at hd
  · simp [hop] at hd
  · rw [e]
    rfl
  · rw [e]
    rfl

/-- A scheduled step of a busy block without reset: the host touches it, and the engine completes the command or leaves it, as the
schedule says (R104). -/
theorem touch_of_step {s : State} {c : ClockCycle} {rest : List ClockCycle} (hp : s.phase = .busy) (hi : s.inputs = c :: rest)
    (hr : c.rstN = true) : ∃ u, HostTouch s u ∧ u.inputs = rest ∧ step s = .next (if c.finish then u.complete else u) := by
  have hn : nextCycle s = (c, rest) := by simp [nextCycle, hi]
  obtain ⟨u, hu⟩ := exists_access c (s.beginCycle c rest)
  have hmove : HostMove s u := hostMove_of_access (by rw [hn, hr]) (by rw [begun, hn, hu])
  refine ⟨u, hmove.touch hp, by rw [hmove.inputs_eq, hn], ?_⟩
  rw [step_of_access hi hr hu, hp]
  rfl

/-- A busy block runs through cycles without reset and completion with no more than the host's touch, and completes in the
finishing cycle. -/
theorem run_to_finish {cf : ClockCycle} {rest : List ClockCycle} (hr : cf.rstN = true) (hf : cf.finish = true)
    (cs : List ClockCycle) : ∀ s : State, s.phase = .busy → s.inputs = cs ++ cf :: rest →
      (∀ c ∈ cs, c.rstN = true ∧ c.finish = false) →
      ∃ v, HostTouch s v ∧ v.inputs = rest ∧ Host.Core.run Sys2Proof.core (cs.length + 1) s = .next v.complete := by
  induction cs with
  | nil =>
    intro s hp hi _
    obtain ⟨u, hu, hrest, hstep⟩ := touch_of_step hp hi hr
    rw [hf, if_pos rfl] at hstep
    exact ⟨u, hu, hrest, run_succ_of_step 0 hstep⟩
  | cons c cs ih =>
    intro s hp hi hcs
    obtain ⟨⟨hcr, hcf⟩, hcs⟩ := List.forall_mem_cons.mp hcs
    obtain ⟨u, hu, hrest, hstep⟩ := touch_of_step hp hi hcr
    rw [hcf, if_neg Bool.false_ne_true] at hstep
    obtain ⟨v, hv, hrestv, hrun⟩ := ih u (hu.frame.1.trans hp) hrest hcs
    exact ⟨v, hu.trans hv, hrestv, (run_succ_of_step _ hstep).trans hrun⟩

/-- The step of a DECODE or GENERATE word given to an idle block is its start (R102). -/
theorem step_of_start {s : State} {c : ClockCycle} {rest : List ClockCycle} {ie : Bool} {op : Op} (hp : s.phase = .idle)
    (hi : s.inputs = c :: rest) (hr : c.rstN = true) (hsel : c.sel = true) (hw : c.write = true) (haddr : c.addr = 0x008)
    (hd : decodeWord c.wdata = .ok (.decode ie) ∧ op = .decode ∨ decodeWord c.wdata = .ok (.generate ie) ∧ op = .generate) :
    step s = .next (((s.beginCycle c rest).setIe ie).start op) := by
  have hidle : issue ie (State.start op) (s.beginCycle c rest) = ((s.beginCycle c rest).setIe ie).start op :=
    State.unlessBusy_idle _ hp
  have hengine : ∀ t : State, t.engine s.phase c.finish = t := by
    rw [hp]
    exact fun _ => rfl
  rcases hd with ⟨hd, rfl⟩ | ⟨hd, rfl⟩
  all_goals
    exact (stepRunsTheDecodedCommand s c rest _ hi hr hsel hw haddr hd).trans
      (congrArg Host.Outcome.next ((hengine _).trans hidle))

end Sys2Proof.Safety

open Sys2Proof Sys2Proof.Machine Sys2Proof.Safety

/-- Settles O18: the start, then the host's touch of the busy block, on which the results of the completion do not depend. -/
theorem nothingTheHostDoesChangesARunningCommand : Obligations.NothingTheHostDoesChangesARunningCommand := by
  rintro s c0 cf cs rest ie op u hp hi hr hsel hw haddr hd hcs hfr hff rfl
  obtain ⟨v, hv, hrest, hrun⟩ := run_to_finish hfr hff cs (((s.beginCycle c0 (cs ++ cf :: rest)).setIe ie).start op) rfl rfl hcs
  refine ⟨v.complete, (run_succ_of_step _ (step_of_start hp hi hr hsel hw haddr hd)).trans hrun, ?_⟩
  have htouch : HostTouch (State.start op { s with ie := ie, timeS := c0.timeS }) v := .trans (.mk ..) hv
  obtain ⟨-, herr, hlast, hgen, hkeyLen, hkey, hlen, hsec, hts, hparams, hikey⟩ := htouch.complete.frame
  obtain ⟨-, -, -, hlen', hsec', hts'⟩ := complete_host_registers (State.start op { s with ie := ie, timeS := c0.timeS })
  exact ⟨v.complete_phase, (complete_host_registers v).1, herr, hlast.trans (State.complete_lastop _), hgen, hkeyLen, hkey,
    hlen.trans hlen', hsec.trans hsec', hts.trans hts', hparams.trans (State.complete_params _),
    fun hop => hikey.trans (ikey_complete_of_generate hop), v.complete_inputs.trans hrest⟩

end

section
/-! The proofs of the family 30_encoding: the decoder looks at OP and IE alone, every CTRL write stores IE, and the frame of a
command as it is issued. -/

namespace Sys2Proof

/-! ### The decoder and the assembler -/

/-- The OP and IE bits of a word are the word R87 assembles from its OP and its IE. -/
theorem and_commandMask_eq_assemble (w : Word) : w &&& 0x0000010F = assemble (w &&& 0x0000000F) (ieField w) := by
  have hie : w &&& 0x00000100 = if w.getLsbD 8 then 0x00000100 else 0 := BitVec.and_twoPow w 8
  calc w &&& 0x0000010F
    _ = w &&& 0x00000100 ||| w &&& 0x0000000F := BitVec.and_or_distrib_left (y := 0x00000100) (z := 0x0000000F)
    _ = assemble (w &&& 0x0000000F) (ieField w) := by
      rw [hie, assemble, ieField]
      cases w.getLsbD 8 <;> rfl

theorem and_commandMask_and_op (w : Word) : w &&& 0x0000010F &&& 0x0000000F = w &&& 0x0000000F := BitVec.and_assoc w _ _

theorem opField_and_commandMask (w : Word) : opField (w &&& 0x0000010F) = opField w := by
  rw [← BitVec.toNat_inj, toNat_opField, toNat_opField, ← toNat_and_op, ← toNat_and_op, and_commandMask_and_op]

theorem ieField_and_commandMask (w : Word) : ieField (w &&& 0x0000010F) = ieField w := by
  unfold ieField
  rw [BitVec.getLsbD_and]
  exact Bool.and_true _

/-- The decoder looks at the OP and IE bits alone (R83). -/
theorem decodeWord_and_commandMask (w : Word) : decodeWord (w &&& 0x0000010F) = decodeWord w := by
  unfold decodeWord
  rw [and_commandMask_and_op, opField_and_commandMask, ieField_and_commandMask]

@[simp] theorem decodeWord_encode (i : Instr) : decodeWord (encode i) = .ok i := by
  cases i with
  | nop ie => cases ie <;> decide
  | decode ie => cases ie <;> decide
  | generate ie => cases ie <;> decide

/-- The OP and IE bits of a word that decodes are the word of its command. -/
theorem and_commandMask_of_decodeWord {w : Word} {i : Instr} (h : decodeWord w = .ok i) : w &&& 0x0000010F = encode i := by
  rw [and_commandMask_eq_assemble]
  unfold decodeWord at h
  split_ifs at h with hop hop hop
  all_goals
    cases h
    rw [hop, encode]

theorem decodeWord_eq_ok_iff {w : Word} {i : Instr} : decodeWord w = .ok i ↔ w &&& 0x0000010F = encode i where
  mp := and_commandMask_of_decodeWord
  mpr h := by rw [← decodeWord_and_commandMask, h, decodeWord_encode]

theorem decodeWord_eq_error_iff {w : Word} {op : BitVec 4} {ie : Bool} :
    decodeWord w = .error (.reservedOp op ie) ↔ 3 ≤ w.toNat % 16 ∧ op.toNat = w.toNat % 16 ∧ ie = w.getLsbD 8 := by
  constructor
  · intro h
    rw [decodeWord_eq] at h
    split_ifs at h
    cases h
    exact ⟨by omega, toNat_opField w, rfl⟩
  · rintro ⟨h3, hop, rfl⟩
    have hfield : opField w = op := by rw [← BitVec.toNat_inj, toNat_opField, hop]
    rw [decodeWord_eq, if_neg (by omega), if_neg (by omega), if_neg (by omega), hfield]

end Sys2Proof

namespace Sys2Proof.Machine

open Sys2Proof

/-! ### CTRL writes and reads -/

/-- A CTRL write with OP ≠ 0 stores IE whether its command is taken or dropped, as the command itself leaves IE alone (R82). -/
theorem ie_issue {f : State → State} (hf : ∀ u, (f u).ie = u.ie) (ie : Bool) (s : State) : (issue ie f s).ie = ie := by
  unfold issue
  rcases State.unlessBusy_cases f (s.setIe ie) with ⟨-, e⟩ | ⟨-, e⟩
  · rw [e, hf, State.setIe_ie]
  · rw [e, State.drop_ie, State.setIe_ie]

/-- Every CTRL write stores IE (R82). -/
theorem ie_of_ctrlWrite {w : Word} {s t : State} (h : ctrlWrite w s = .next t) : t.ie = w.getLsbD 8 := by
  rw [ctrlWrite_eq] at h
  cases h
  split
  · rfl
  · split
    · exact ie_issue (State.start_ie _) _ s
    · split
      · exact ie_issue (State.start_ie _) _ s
      · refine ie_issue ?_ _ s
        exact fun _ => rfl

/-- Without IE there is no interrupt (R45). -/
theorem State.irq_of_ie_eq_false {s : State} (h : s.ie = false) : s.irq = false := by
  rw [State.irq, h, Bool.false_and]

/-- A read of CTRL answers its value in either phase (R26, R62). -/
theorem busRdata_memRead_ctrl (s : State) : (memRead 0x008 s).busRdata = some s.ctrlWord := by
  rcases memRead_cases 0x008 s with ⟨hn, -⟩ | ⟨-, -, hr, -⟩ | ⟨-, -, e⟩
  · exact absurd rfl hn
  · cases hr
  · rw [e, State.answer_busRdata]
    rfl

/-! ### The frame of a command as it is issued -/

/-- No command, as it is issued, writes the parameters, the inputs, the results, ikey, the ports or the schedule (R84, R109). -/
theorem exec_frame {i : Instr} {s t : State} (h : exec i s = .next t) :
    t.params = s.params ∧ t.secretLen = s.secretLen ∧ t.tslice = s.tslice ∧ t.gen = s.gen ∧ t.keyLen = s.keyLen ∧
    t.timeS = s.timeS ∧ t.busRdata = s.busRdata ∧ t.busErr = s.busErr ∧ t.inputs = s.inputs ∧ t.draws = s.draws ∧
    t.secret = s.secret ∧ t.key = s.key ∧ t.ikey = s.ikey := by
  rcases exec_cases h with ⟨ie, -, rfl⟩ | ⟨ie, op, -, -, rfl⟩ | ⟨ie, -, -, rfl⟩
  all_goals exact ⟨rfl, rfl, rfl, rfl, rfl, rfl, rfl, rfl, rfl, rfl, rfl, rfl, rfl⟩

theorem State.secretByte_congr {s t : State} (hp : t.params = s.params) (hm : t.secret = s.secret) (a : Nat) :
    t.secretByte a = s.secretByte a := by
  rw [State.secretByte, hp, hm, State.secretByte]

theorem State.keyByte_congr {s t : State} (hp : t.params = s.params) (hm : t.key = s.key) (a : Nat) :
    t.keyByte a = s.keyByte a := by
  rw [State.keyByte, hp, hm, State.keyByte]

/-- A NOP stores IE (R101). -/
theorem eq_setIe_of_exec_nop {ie : Bool} {s t : State} (h : exec (.nop ie) s = .next t) : t = s.setIe ie := by
  cases h
  rfl

/-- What a DECODE or GENERATE given to an idle block does is its start (R102). -/
theorem start_of_exec {i : Instr} {ie : Bool} {s t : State} (hi : i = .decode ie ∨ i = .generate ie) (hp : s.phase = .idle)
    (h : exec i s = .next t) : ∃ op, t = (s.setIe ie).start op := by
  rcases hi with rfl | rfl
  all_goals
    cases h
    exact ⟨_, State.unlessBusy_idle _ hp⟩

/-- What a DECODE or GENERATE given to a busy block does is to store IE and to be dropped (R106). -/
theorem drop_of_exec {i : Instr} {ie : Bool} {s t : State} (hi : i = .decode ie ∨ i = .generate ie) (hp : s.phase = .busy)
    (h : exec i s = .next t) : t = (s.setIe ie).drop := by
  rcases hi with rfl | rfl
  all_goals
    cases h
    exact State.unlessBusy_busy _ hp

end Sys2Proof.Machine

open Sys2Proof Sys2Proof.Machine

/-- Settles O1: a word under the mask of OP and IE is the word assembled from its own fields, and the decoder does not look past
the mask. -/
theorem decodingIsTotalAndIgnoresReservedBits : Obligations.DecodingIsTotalAndIgnoresReservedBits :=
  ⟨decodeWord_encode, fun _ _ => decodeWord_eq_ok_iff, fun _ _ _ => decodeWord_eq_error_iff⟩

/-- Settles O3: the decoder does not see the reserved bits, and CTRL holds IE alone. -/
theorem reservedBitsOfACommandWordAreIgnored : Obligations.ReservedBitsOfACommandWordAreIgnored := by
  refine ⟨fun w s => ?_, fun w s t h => ?_⟩
  · rw [memWrite_ctrl, memWrite_ctrl, ctrlWrite, ctrlWrite, decodeWord_and_commandMask]
  · rw [busRdata_memRead_ctrl, ctrlWord_eq, ie_of_ctrlWrite h]

/-- Settles O12: the CTRL write answers a next state, with the word's IE in it, and irq needs IE. -/
theorem everyCtrlWriteStoresIe : Obligations.EveryCtrlWriteStoresIe := by
  intro w s
  obtain ⟨t, h⟩ := Safety.exists_memWrite 0x008 w s
  have hie : t.ie = w.getLsbD 8 := ie_of_ctrlWrite h
  exact ⟨t, h, hie, fun h0 => State.irq_of_ie_eq_false (hie.trans h0)⟩

/-- Settles O13: the frame common to the commands, then what each kind of issue leaves besides. -/
theorem aCommandWordLeavesInputsAndResultsAlone : Obligations.ACommandWordLeavesInputsAndResultsAlone := by
  intro i s t h
  obtain ⟨hparams, hlen, hts, hgen, hkeyLen, htime, hrdata, herr, hin, hdraws, hsec, hkey, hikey⟩ := exec_frame h
  refine ⟨hparams, hlen, hts, hgen, hkeyLen, htime, hrdata, herr, hin, hdraws, State.secretByte_congr hparams hsec,
    State.keyByte_congr hparams hkey, fun a => by rw [hikey], ?nop, ?start, ?dropped⟩
  case nop =>
    rintro ie rfl
    obtain rfl := eq_setIe_of_exec_nop h
    exact ⟨rfl, rfl, rfl, rfl, rfl, rfl, rfl⟩
  case start =>
    intro ie hi hp
    obtain ⟨op, rfl⟩ := start_of_exec hi hp h
    rfl
  case dropped =>
    intro ie hi hp
    obtain rfl := drop_of_exec hi hp h
    exact ⟨rfl, rfl, rfl, rfl, rfl, rfl⟩

/-- Settles O2: each word has the OP and IE bits of the command it stands for. -/
theorem wordsOfTheEncodingDecode : Obligations.WordsOfTheEncodingDecode :=
  ⟨decodeWord_eq_ok_iff.mpr (by decide), decodeWord_eq_ok_iff.mpr (by decide), decodeWord_eq_ok_iff.mpr (by decide),
    decodeWord_eq_ok_iff.mpr (by decide), decodeWord_eq_error_iff.mpr (by decide)⟩

end

section
/-! The proofs of the family 40_command_interface: what an issued command does to an idle and to a busy block, what its start takes
in the snapshot, what a completion can write, and what decides the results of a GENERATE. -/

namespace Sys2Proof.Machine

open Sys2Proof Sys2Proof.Safety

/-! ### Commands as they are issued -/

/-- A command word given to a busy block stores IE and is dropped (R106). -/
theorem issue_of_busy (ie : Bool) (f : State → State) {s : State} (hp : s.phase = .busy) :
    issue ie f s = { s with ie, dropped := true } := State.unlessBusy_busy f (s := s.setIe ie) hp

/-- A command word given to an idle block stores IE and acts (R100). -/
theorem issue_of_idle (ie : Bool) (f : State → State) {s : State} (hp : s.phase = .idle) :
    issue ie f s = f { s with ie } := State.unlessBusy_idle f (s := s.setIe ie) hp

/-- The word of a command, written to CTRL, runs it (R87, R100). -/
theorem memWrite_ctrl_encode (i : Instr) (s : State) : memWrite 0x008 (encode i) s = exec i s := by
  simp only [memWrite_ctrl, ctrlWrite, decodeWord_encode]

/-- A CTRL write with OP ≠ 0 issues what its OP names: the start of a command, or the rejection (R100). -/
theorem exists_issue_of_op_ne_zero {w : Word} (hw : w.toNat % 16 ≠ 0) (s : State) :
    ∃ f, memWrite 0x008 w s = .next (issue (w.getLsbD 8) f s) := by
  rw [memWrite_ctrl, ctrlWrite_eq, if_neg hw]
  split
  · exact ⟨_, rfl⟩
  · split
    · exact ⟨_, rfl⟩
    · exact ⟨_, rfl⟩

/-- A busy block takes no more than IE from a CTRL write with OP ≠ 0 (R106, R107). -/
theorem memWrite_ctrl_of_busy {w : Word} {s : State} (hp : s.phase = .busy) (hw : w.toNat % 16 ≠ 0) :
    memWrite 0x008 w s = .next { s with ie := w.getLsbD 8, dropped := true } := by
  obtain ⟨f, e⟩ := exists_issue_of_op_ne_zero hw s
  rw [e, issue_of_busy _ f hp]

/-- A busy block drops a write to an input (R106). -/
theorem memWrite_input_of_busy {off : BitVec 10} (hoff : InputOffset off) (v : Word) {s : State} (hp : s.phase = .busy) :
    memWrite off v s = .next { s with dropped := true } := by
  obtain ⟨f, e, -⟩ := memWrite_input hoff v s
  rw [e, State.unlessBusy_busy f hp]
  rfl

/-- A CTRL write with a reserved OP is a rejection (R105). -/
theorem memWrite_ctrl_reserved {w : Word} (hw : 3 ≤ w.toNat % 16) (s : State) :
    memWrite 0x008 w s = .next (rejectReserved (opField w) (w.getLsbD 8) s) := by
  rw [memWrite_ctrl, ctrlWrite_eq, if_neg (by omega), if_neg (by omega), if_neg (by omega)]

theorem opField_eq_ofNat (w : Word) : opField w = BitVec.ofNat 4 (w.toNat % 16) := by
  rw [← toNat_opField, BitVec.ofNat_toNat, BitVec.setWidth_eq]

/-! ### The snapshot of a start -/

/-- A DECODE does not sample the time source (R102). -/
theorem State.takeSnap_decode (s : State) : s.takeSnap .decode =
    { len := s.secretLen, secret := s.secretBytes, tslice := s.tslice, time := s.snap.time } := by
  simp [State.takeSnap]

/-- A GENERATE samples the time source when TSLICE is the sentinel 0 (R102, R151). -/
theorem State.takeSnap_generate (s : State) : s.takeSnap .generate =
    { len := s.secretLen, secret := s.secretBytes, tslice := s.tslice,
      time := if s.tslice = 0 then s.timeS else s.snap.time } := by
  simp [State.takeSnap]

/-! ### What a completion can write -/

/-- A completion reports its outcome and writes at most the results of the commands and ikey (R103). -/
theorem State.complete_eq_with (s : State) : ∃ errcode gen keyLen key ikey,
    s.complete = { s with phase := .idle, done := true, errcode, gen, keyLen, key, ikey } := by
  rcases s.complete_cases with ⟨-, k, -, e⟩ | ⟨-, e', -, e⟩ | ⟨-, k, -, e⟩ | ⟨-, e', -, e⟩
  all_goals exact ⟨_, _, _, _, _, e⟩

/-- A DECODE leaves the key storage of GENERATE (R44, R133). -/
theorem ikey_complete_of_decode {s : State} (hop : s.curOp = .decode) : s.complete.ikey = s.ikey := by
  rcases s.complete_cases with ⟨-, k, -, e⟩ | ⟨-, e', -, e⟩ | ⟨hg, -⟩ | ⟨hg, -⟩
  · rw [e]
    rfl
  · rw [e]
    rfl
  · simp [hop] at hg
  · simp [hop] at hg

/-! ### What decides the results of a GENERATE -/

/-- A GENERATE writes the registers R154 computes, or zeros when it fails (R157, R158). -/
theorem gen_complete_of_generate {s : State} (hop : s.curOp = .generate) :
    s.complete.gen = (generateSnap s.params s.snap).toOption.getD GenRegs.zero := by
  simp only [State.complete, hop, State.completeGenerate]
  cases generateSnap s.params s.snap with
  | ok g => rfl
  | error e => rfl

/-- TSLICE alone gives the slice, but for the sentinel 0, where the slice of the sampled time does (R152). -/
theorem resolveSlice_congr {n m : Snap} (hts : n.tslice = m.tslice)
    (htime : n.tslice = 0 → (n.time.toNat / 30) % 2 ^ 32 = (m.time.toNat / 30) % 2 ^ 32) : resolveSlice n = resolveSlice m := by
  unfold resolveSlice
  rw [← hts]
  by_cases h0 : n.tslice = 0
  · have hslice : sliceOf n.time = sliceOf m.time := BitVec.eq_of_toNat_eq (by simpa [sliceOf] using htime h0)
    rw [hslice]
  · rw [if_pos h0, if_pos h0]

section
variable {p q : Params} {n m : Snap} (hmax : p.secretMax = q.secretMax) (hlen : n.len = m.len) (hsec : n.secret = m.secret)
include hmax hlen hsec

/-- The decoding step looks at the secret, its length and SECRET_MAX (R133, R157). -/
theorem decodeSnap_congr : decodeSnap p n = decodeSnap q m := by
  rw [decodeSnap, hmax, hlen, hsec, decodeSnap]

theorem generateSnap_congr (hslice : resolveSlice n = resolveSlice m) : generateSnap p n = generateSnap q m := by
  rw [generateSnap, decodeSnap_congr hmax hlen hsec, hslice, generateSnap]

end

end Sys2Proof.Machine

open Sys2Proof Sys2Proof.Machine Sys2Proof.Safety

/-- Settles O10: the guarded CTRL writes, and the guarded writes to the three kinds of input. -/
theorem aBusyBlockDropsCommandsAndInputWrites : Obligations.ABusyBlockDropsCommandsAndInputWrites := by
  intro s hp
  refine ⟨fun w hw => memWrite_ctrl_of_busy hp hw, fun v => memWrite_input_of_busy (.inl rfl) v hp,
    fun v => memWrite_input_of_busy (.inr (.inl rfl)) v hp,
    fun off v h4 h1 h2 => memWrite_input_of_busy (.inr (.inr ⟨h4, h1, h2⟩)) v hp, fun ie => ⟨?decode, ?generate⟩⟩
  case decode => exact congrArg _ (issue_of_busy ie (State.start .decode) hp)
  case generate => exact congrArg _ (issue_of_busy ie (State.start .generate) hp)

/-- Settles O11: the rejection of an idle block, and the drop of any OP ≠ 0 by a busy one. -/
theorem aReservedOpIsRejectedAtOnce : Obligations.AReservedOpIsRejectedAtOnce := by
  intro w s hw
  refine ⟨fun hp => ?_, fun hp => memWrite_ctrl_of_busy hp (by omega)⟩
  rw [memWrite_ctrl_reserved hw, rejectReserved, issue_of_idle _ _ hp, opField_eq_ofNat]
  exact congrArg Host.Outcome.next (by simp [State.report, Err.code, hp])

/-- Settles O16: what a completion can write at all, and of the results only those of its own command. -/
theorem aCompletionLeavesTheOtherCommandsResultsAlone : Obligations.ACompletionLeavesTheOtherCommandsResultsAlone := by
  intro s
  obtain ⟨hgen, hkeys⟩ := complete_other_results s
  refine ⟨?frame, fun hop => ⟨hgen hop, fun a => by rw [ikey_complete_of_decode hop]⟩, fun hop => ?generate⟩
  case frame =>
    obtain ⟨errcode, gen, keyLen, key, ikey, e⟩ := s.complete_eq_with
    rw [e]
    exact ⟨rfl, rfl, rfl, rfl, rfl, rfl, rfl, rfl, rfl, rfl, rfl, rfl, rfl, State.secretByte_congr rfl rfl⟩
  case generate =>
    obtain ⟨hkeyLen, hkey⟩ := hkeys hop
    refine ⟨hkeyLen, State.keyByte_congr s.complete_params hkey, fun a => ?_⟩
    rw [ikey_complete_of_generate hop, Memory.read_nil]

/-- Settles O17: the decoding step and the slice, which decide the results, are the same on both sides. -/
theorem generateDependsOnItsSnapshotAlone : Obligations.GenerateDependsOnItsSnapshotAlone := by
  intro s u hs hu hmax hlen hsec hts htime
  constructor
  · rw [gen_complete_of_generate hs, gen_complete_of_generate hu,
      generateSnap_congr hmax hlen hsec (resolveSlice_congr hts htime)]
  · rw [errcode_complete, errcode_complete, decodeSnap_congr hmax hlen hsec]

/-- Settles O7: NOP's word runs NOP, which stores IE. -/
theorem nopStoresIeAndNothingElse : Obligations.NopStoresIeAndNothingElse :=
  fun ie s => ⟨rfl, memWrite_ctrl_encode (.nop ie) s, rfl⟩

/-- Settles O8: the start of a DECODE, with its snapshot. -/
theorem decodeStartsWhenIdle : Obligations.DecodeStartsWhenIdle := by
  intro ie s hp
  have hstart := issue_of_idle ie (State.start .decode) hp
  rw [State.start, State.takeSnap_decode] at hstart
  exact congrArg _ hstart

/-- Settles O9: the start of a GENERATE, with its snapshot. -/
theorem generateStartsWhenIdle : Obligations.GenerateStartsWhenIdle := by
  intro ie s hp
  have hstart := issue_of_idle ie (State.start .generate) hp
  rw [State.start, State.takeSnap_generate] at hstart
  exact congrArg _ hstart

end

section
/-! The proofs of the family 41_base32_decoder: the alphabet, the trailing padding, the decoded bytes as bit strings, and standard
base32 decoded back. -/

namespace Sys2Proof.Machine

open Sys2Proof Sys2Proof.Safety

/-! ### The alphabet -/

/-- The lookup finds a character of the alphabet at its place (R120). -/
theorem b32Index_byteAt_alphabet : ∀ {i : Nat}, i < 32 → b32Index (byteAt alphabet i) = some i := by decide

/-- The letters stand at the places 0 to 25 (R120). -/
theorem getElem?_alphabet_letter : ∀ {i : Nat}, i < 26 → alphabet[i]? = some (BitVec.ofNat 8 (0x41 + i)) := by decide

/-- The digits stand at the places 26 to 31 (R120). -/
theorem getElem?_alphabet_digit : ∀ {i : Nat}, i < 6 → alphabet[i + 26]? = some (BitVec.ofNat 8 (0x32 + i)) := by decide

theorem getElem?_alphabet_of_b32Index {c : Byte} {i : Nat} (h : b32Index c = some i) : alphabet[i]? = some c := by
  unfold b32Index at h
  split at h
  next hletter =>
    cases h
    rw [getElem?_alphabet_letter (by omega), Nat.add_sub_cancel' hletter.1, BitVec.ofNat_toNat, BitVec.setWidth_eq]
  next =>
    split at h
    next hdigit =>
      cases h
      rw [getElem?_alphabet_digit (by omega), Nat.add_sub_cancel' hdigit.1, BitVec.ofNat_toNat, BitVec.setWidth_eq]
    next => cases h

theorem b32Index_of_getElem?_alphabet {c : Byte} {i : Nat} (h : alphabet[i]? = some c) : b32Index c = some i := by
  have hi : i < 32 := (List.getElem?_eq_some_iff.mp h).1
  have hc : byteAt alphabet i = c := by rw [byteAt, List.getD_eq_getElem?_getD, h, Option.getD_some]
  rw [← hc, b32Index_byteAt_alphabet hi]

theorem b32Index_lt {c : Byte} {i : Nat} (h : b32Index c = some i) : i < 32 :=
  (List.getElem?_eq_some_iff.mp (getElem?_alphabet_of_b32Index h)).1

/-- Characters that all have an index are no padding (R120). -/
theorem padByte_notMem_of_map_b32Index {d : List Byte} {v : List Nat} (h : d.map b32Index = v.map some) : padByte ∉ d := by
  intro hpad
  have hnone : b32Index padByte ∈ v.map some := h ▸ List.mem_map_of_mem hpad
  simp [show b32Index padByte = none from by decide] at hnone

theorem lt_of_map_b32Index {d : List Byte} {v : List Nat} (h : d.map b32Index = v.map some) : ∀ x ∈ v, x < 32 := by
  intro x hx
  have hmem : some x ∈ d.map b32Index := h ▸ List.mem_map_of_mem hx
  obtain ⟨c, -, hc⟩ := List.mem_map.mp hmem
  exact b32Index_lt hc

/-! ### The trailing padding -/

theorem trailingPads_eq (s : List Byte) : trailingPads s = (s.rtakeWhile (· == padByte)).length := by
  rw [trailingPads, List.rtakeWhile, List.length_reverse]

/-- The trailing run is made of '=' (R123). -/
theorem rtakeWhile_padByte (s : List Byte) : s.rtakeWhile (· == padByte) = List.replicate (trailingPads s) padByte := by
  rw [trailingPads_eq]
  exact List.eq_replicate_of_mem fun c hc => by simpa using List.mem_rtakeWhile_imp hc

/-- The data characters are what is left of the trailing run (R125). -/
theorem dataChars_eq (s : List Byte) : dataChars s = s.rdropWhile (· == padByte) := by
  have hs : s.rdropWhile (· == padByte) ++ s.rtakeWhile (· == padByte) = s := List.rdropWhile_append_rtakeWhile
  have hlen := congrArg List.length hs
  rw [List.length_append, ← trailingPads_eq] at hlen
  calc dataChars s = (s.rdropWhile (· == padByte) ++ s.rtakeWhile (· == padByte)).take (s.length - trailingPads s) := by
        rw [hs, dataChars]
    _ = s.rdropWhile (· == padByte) := List.take_left' (by omega)

theorem dataChars_append_pads (s : List Byte) : dataChars s ++ List.replicate (trailingPads s) padByte = s := by
  rw [dataChars_eq, ← rtakeWhile_padByte, List.rdropWhile_append_rtakeWhile]

theorem length_dataChars (s : List Byte) : (dataChars s).length = s.length - trailingPads s := by
  rw [dataChars, List.length_take]
  omega

/-- The run is the longest: the last data character is not '=' (R123). -/
theorem getLast?_dataChars_ne_padByte (s : List Byte) : (dataChars s).getLast? ≠ some padByte := by
  intro h
  rw [dataChars_eq] at h
  have hne : s.rdropWhile (· == padByte) ≠ [] := fun hnil => by simp [hnil] at h
  rw [List.getLast?_eq_some_getLast hne, Option.some_inj] at h
  exact List.rdropWhile_last_not _ _ hne (beq_iff_eq.mpr h)

/-- A run of '=' after characters that are none is the trailing run (R123). -/
theorem trailingPads_append_replicate {d : List Byte} (h : padByte ∉ d) (p : Nat) :
    trailingPads (d ++ List.replicate p padByte) = p := by
  have hd : d.reverse.takeWhile (· == padByte) = [] := by
    refine List.takeWhile_eq_nil_iff.mpr fun hl hp => h ?_
    rw [← eq_of_beq hp]
    exact List.mem_reverse.mp (List.get_mem _ _)
  rw [trailingPads, List.reverse_append, List.reverse_replicate, List.takeWhile_append_of_pos (by simp), hd,
    List.append_nil, List.length_replicate]

theorem dataChars_append_replicate {d : List Byte} (h : padByte ∉ d) (p : Nat) :
    dataChars (d ++ List.replicate p padByte) = d := by
  rw [dataChars, trailingPads_append_replicate h]
  exact List.take_left' (by simp)

/-! ### Bit strings -/

@[simp] theorem length_bitsOf (n x : Nat) : (bitsOf n x).length = n := by simp [bitsOf]

/-- The bits above the `m` lowest come first. -/
theorem bitsOf_add (n m x : Nat) : bitsOf (n + m) x = bitsOf n (x >>> m) ++ bitsOf m x := by
  simp only [bitsOf, List.range_add, List.map_append, List.map_map, Nat.testBit_shiftRight]
  congr 1
  · refine List.map_congr_left fun i hi => ?_
    have hi : i < n := List.mem_range.mp hi
    congr 1
    omega
  · refine List.map_congr_left fun i hi => ?_
    have hi : i < m := List.mem_range.mp hi
    simp only [Function.comp_apply]
    congr 1
    omega

/-- The bits above the `n` lowest do not show. -/
theorem bitsOf_mod (n x : Nat) : bitsOf n (x % 2 ^ n) = bitsOf n x := by
  refine List.map_congr_left fun i hi => ?_
  have hi : i < n := List.mem_range.mp hi
  rw [Nat.testBit_mod_two_pow, decide_eq_true (by omega), Bool.true_and]

theorem mod_two_pow_eq_of_bitsOf_eq {n x y : Nat} (h : bitsOf n x = bitsOf n y) : x % 2 ^ n = y % 2 ^ n := by
  refine Nat.eq_of_testBit_eq fun i => ?_
  rw [Nat.testBit_mod_two_pow, Nat.testBit_mod_two_pow]
  by_cases hi : i < n
  · have hbit := List.map_inj_left.mp h (n - 1 - i) (List.mem_range.mpr (by omega))
    rw [show n - 1 - (n - 1 - i) = i by omega] at hbit
    rw [hbit]
  · simp [hi]

/-- A bit string cut into `n` pieces of `w` bits, left to right. -/
theorem flatMap_bitsOf_shiftRight (w n x : Nat) :
    ((List.range n).flatMap fun j => bitsOf w (x >>> (w * (n - 1 - j)))) = bitsOf (w * n) x := by
  induction n with
  | zero => rfl
  | succ n ih =>
    rw [Nat.mul_succ, Nat.add_comm (w * n), bitsOf_add, ← ih, List.range_succ_eq_map, List.flatMap_cons, List.flatMap_map]
    congr 1
    refine List.flatMap_congr fun j _ => ?_
    rw [show n + 1 - 1 - (j + 1) = n - 1 - j by omega]

/-- The bits of a number's digits in base `2 ^ w` are the bits of the number. -/
theorem flatMap_bitsOf_eq_bitsOf_foldl {w : Nat} {v : List Nat} (h : ∀ x ∈ v, x < 2 ^ w) :
    v.flatMap (bitsOf w) = bitsOf (w * v.length) (v.foldl (fun acc x => acc * 2 ^ w + x) 0) := by
  induction v using List.reverseRecOn with
  | nil => rfl
  | append_singleton v x ih =>
    have hx : x < 2 ^ w := h x (by simp)
    have hhigh : ∀ acc : Nat, (acc * 2 ^ w + x) >>> w = acc := fun acc => by
      rw [Nat.shiftRight_eq_div_pow, Nat.mul_comm, Nat.mul_add_div (Nat.two_pow_pos w), Nat.div_eq_of_lt hx, Nat.add_zero]
    have hlow : ∀ acc : Nat, bitsOf w (acc * 2 ^ w + x) = bitsOf w x := fun acc => by
      rw [← bitsOf_mod, Nat.mul_add_mod_self_right, bitsOf_mod]
    rw [List.flatMap_append, ih fun y hy => h y (by simp [hy]), List.foldl_append, List.length_append, Nat.mul_add,
      List.length_singleton, Nat.mul_one, bitsOf_add]
    simp only [List.foldl_cons, List.foldl_nil, hhigh, hlow, List.flatMap_cons, List.flatMap_nil, List.append_nil]

/-- The bits of a byte sequence are those of its big-endian number (R128). -/
theorem byteBits_eq (b : List Byte) : byteBits b = bitsOf (8 * b.length) (bytesValue b) := by
  have h := flatMap_bitsOf_eq_bitsOf_foldl (w := 8) (v := b.map BitVec.toNat) (by
    intro x hx
    obtain ⟨c, -, rfl⟩ := List.mem_map.mp hx
    exact c.isLt)
  rwa [List.flatMap_map, List.foldl_map, List.length_map] at h

/-- A byte sequence is read back from its bits (R128). -/
theorem byteBits_injective : Function.Injective byteBits := by
  intro a
  induction a with
  | nil =>
    intro b h
    cases b with
    | nil => rfl
    | cons y b => simp [byteBits, bitsOf] at h
  | cons x a ih =>
    intro b h
    cases b with
    | nil => simp [byteBits, bitsOf] at h
    | cons y b =>
      have hbits : bitsOf 8 x.toNat ++ byteBits a = bitsOf 8 y.toNat ++ byteBits b := h
      obtain ⟨hhead, htail⟩ := List.append_inj hbits (by simp)
      have hxy := mod_two_pow_eq_of_bitsOf_eq hhead
      have hx := x.isLt
      have hy := y.isLt
      rw [ih htail, BitVec.eq_of_toNat_eq (by omega : x.toNat = y.toNat)]

/-- The bits of 5-bit indexes are those of the number they make (R127). -/
theorem indexBits_eq {v : List Nat} (h : ∀ x ∈ v, x < 32) :
    indexBits v = bitsOf (5 * v.length) (v.foldl (fun a x => a * 32 + x) 0) :=
  flatMap_bitsOf_eq_bitsOf_foldl h

theorem length_indexBits (v : List Nat) : (indexBits v).length = 5 * v.length := by
  simp [indexBits, List.length_flatMap, Nat.mul_comm]

theorem indexBits_append (v₁ v₂ : List Nat) : indexBits (v₁ ++ v₂) = indexBits v₁ ++ indexBits v₂ := List.flatMap_append

theorem byteBits_append (a b : List Byte) : byteBits (a ++ b) = byteBits a ++ byteBits b := List.flatMap_append

/-! ### Chunks -/

/-- Characters that all have an index are gathered into the number of their indexes (R127). -/
theorem gather_of_map_b32Index : ∀ {ch : List Byte} {v : List Nat} {acc : Nat}, ch.map b32Index = v.map some →
    gather acc ch = .ok (v.foldl (fun a x => a * 32 + x) acc)
  | [], [], _, _ => rfl
  | c :: ch, x :: v, acc, h => by
    obtain ⟨hc, hch⟩ := List.cons.inj h
    rw [gather, hc]
    exact gather_of_map_b32Index hch

/-- Characters that are gathered all have an index (R126). -/
theorem map_b32Index_of_gather_ok : ∀ {ch : List Byte} {acc n : Nat}, gather acc ch = .ok n →
    ∃ v : List Nat, ch.map b32Index = v.map some
  | [], _, _, _ => ⟨[], rfl⟩
  | c :: ch, acc, n, h => by
    unfold gather at h
    split at h
    · cases h
    next x hx =>
      obtain ⟨v, hv⟩ := map_b32Index_of_gather_ok h
      exact ⟨x :: v, by rw [List.map_cons, List.map_cons, hx, hv]⟩

/-- The whole bytes of a bit string (R128). -/
theorem byteBits_wholeBytes (k acc : Nat) : byteBits (wholeBytes k acc) = (bitsOf (5 * k) acc).take (8 * (5 * k / 8)) := by
  have hbyte : ∀ x : Nat, bitsOf 8 (BitVec.ofNat 8 x).toNat = bitsOf 8 x := bitsOf_mod 8
  have hcut : 5 * k = 8 * (5 * k / 8) + (5 * k - 8 * (5 * k / 8)) := by omega
  calc byteBits (wholeBytes k acc) = bitsOf (8 * (5 * k / 8)) (acc >>> (5 * k - 8 * (5 * k / 8))) := by
        simp only [byteBits, wholeBytes, List.flatMap_map, hbyte, flatMap_bitsOf_shiftRight]
    _ = (bitsOf (8 * (5 * k / 8) + (5 * k - 8 * (5 * k / 8))) acc).take (8 * (5 * k / 8)) := by
        rw [bitsOf_add, List.take_left' (length_bitsOf _ _)]
    _ = (bitsOf (5 * k) acc).take (8 * (5 * k / 8)) := by rw [← hcut]

/-- A chunk of characters that all have an index decodes to the whole bytes of their bit string (R127, R128). -/
theorem decodeChunk_of_map_b32Index {ch : List Byte} {v : List Nat} (h : ch.map b32Index = v.map some) :
    ∃ b, decodeChunk ch = .ok b ∧ byteBits b = (indexBits v).take (8 * (5 * v.length / 8)) := by
  have hlen : ch.length = v.length := by simpa using congrArg List.length h
  refine ⟨_, by rw [decodeChunk, gather_of_map_b32Index h], ?_⟩
  rw [byteBits_wholeBytes, indexBits_eq (lt_of_map_b32Index h), hlen]

/-- A chunk that decodes gives the whole bytes of the bit string of its indexes (R126, R127, R128). -/
theorem byteBits_of_decodeChunk_ok {ch b : List Byte} (h : decodeChunk ch = .ok b) :
    ∃ v : List Nat, ch.map b32Index = v.map some ∧ byteBits b = (indexBits v).take (8 * (5 * v.length / 8)) := by
  obtain ⟨n, hg⟩ : ∃ n, gather 0 ch = .ok n := by
    cases hg : gather 0 ch with
    | error e => simp [decodeChunk, hg] at h
    | ok n => exact ⟨n, rfl⟩
  obtain ⟨v, hv⟩ := map_b32Index_of_gather_ok hg
  obtain ⟨b', hb', hbits⟩ := decodeChunk_of_map_b32Index hv
  obtain rfl : b = b' := by simpa [h] using hb'
  exact ⟨v, hv, hbits⟩

/-- Whole bytes of a first chunk and of the rest: a first chunk of 8 characters is 40 bits, which are whole bytes, and a shorter
one has nothing after it. -/
theorem take_indexBits_append {v₁ v₂ : List Nat} (h : v₁.length = 8 ∨ v₂ = []) :
    (indexBits (v₁ ++ v₂)).take (8 * (5 * (v₁ ++ v₂).length / 8)) =
      (indexBits v₁).take (8 * (5 * v₁.length / 8)) ++ (indexBits v₂).take (8 * (5 * v₂.length / 8)) := by
  rcases h with h8 | rfl
  · have hcut : 8 * (5 * (8 + v₂.length) / 8) = 40 + 8 * (5 * v₂.length / 8) := by omega
    have h40 : (indexBits v₁).length = 40 := by rw [length_indexBits, h8]
    rw [List.length_append, h8, hcut, indexBits_append, ← h40, List.take_length_add_append,
      List.take_of_length_le (i := 8 * (5 * 8 / 8)) h40.le]
  · simp [indexBits]

/-- Chunks that decode give the whole bytes of the bit string of all their indexes (R126, R127, R128). -/
theorem byteBits_of_decodeChunks_ok {n : Nat} : ∀ {d b : List Byte}, n = (d.length + 7) / 8 → decodeChunks n d = .ok b →
    ∃ v : List Nat, d.map b32Index = v.map some ∧ byteBits b = (indexBits v).take (8 * (5 * v.length / 8)) := by
  induction n with
  | zero =>
    intro d b hn h
    obtain rfl : d = [] := List.eq_nil_of_length_eq_zero (by omega)
    cases h
    exact ⟨[], rfl, rfl⟩
  | succ n ih =>
    intro d b hn h
    obtain ⟨b₁, b₂, h₁, h₂, rfl⟩ := decodeChunks_succ_ok h
    obtain ⟨v₁, hv₁, hb₁⟩ := byteBits_of_decodeChunk_ok h₁
    obtain ⟨v₂, hv₂, hb₂⟩ := ih (by rw [List.length_drop]; omega) h₂
    have hl₁ : v₁.length = min 8 d.length := by simpa using (congrArg List.length hv₁).symm
    have hl₂ : v₂.length = d.length - 8 := by simpa using (congrArg List.length hv₂).symm
    have hfull : v₁.length = 8 ∨ v₂ = [] := by
      rcases Nat.le_total 8 d.length with h8 | h8
      · exact .inl (by omega)
      · exact .inr (List.eq_nil_of_length_eq_zero (by omega))
    refine ⟨v₁ ++ v₂, by rw [List.map_append, ← hv₁, ← hv₂, ← List.map_append, List.take_append_drop], ?_⟩
    rw [take_indexBits_append hfull, ← hb₁, ← hb₂, byteBits_append]

/-! ### Standard base32 -/

/-- A group of `n` bytes has this many characters (R129). -/
def groupSize (n : Nat) : Nat := (8 * n + 4) / 5

/-- The 5-bit indexes of a group of bytes, the first one's most significant (R131). -/
def groupIndexes (g : List Byte) : List Nat :=
  (List.range (groupSize g.length)).map fun j =>
    (bytesValue g <<< (5 * groupSize g.length - 8 * g.length)) >>> (5 * (groupSize g.length - 1 - j)) % 32

/-- The characters of a group of bytes, without its padding (R131). -/
def groupChars (g : List Byte) : List Byte := (groupIndexes g).map (byteAt alphabet)

/-- The characters of the first `n` groups of 5 bytes, without the padding (R131). -/
def encodedChars : Nat → List Byte → List Byte
  | 0, _ => []
  | n + 1, b => groupChars (b.take 5) ++ encodedChars n (b.drop 5)

/-- The padding of `n` bytes: what its last group lacks of 8 characters (R131). -/
def encodedPads (n : Nat) : Nat := (8 - groupSize (n % 5)) % 8

theorem base32Group_eq (g : List Byte) :
    base32Group g = groupChars g ++ List.replicate (8 - groupSize g.length) padByte := by
  rw [groupChars, groupIndexes, List.map_map]
  rfl

@[simp] theorem length_groupChars (g : List Byte) : (groupChars g).length = groupSize g.length := by
  rw [groupChars, groupIndexes, List.length_map, List.length_map, List.length_range]

/-- The lookup gives a group's indexes back (R120). -/
theorem map_b32Index_groupChars (g : List Byte) : (groupChars g).map b32Index = (groupIndexes g).map some := by
  rw [groupChars, List.map_map]
  refine List.map_congr_left fun i hi => ?_
  obtain ⟨j, -, rfl⟩ := List.mem_map.mp hi
  exact b32Index_byteAt_alphabet (Nat.mod_lt _ (by decide))

/-- The bits of a group's indexes are those of its number, with zero bits to fill the last character (R131). -/
theorem indexBits_groupIndexes (g : List Byte) : indexBits (groupIndexes g) =
    bitsOf (5 * groupSize g.length) (bytesValue g <<< (5 * groupSize g.length - 8 * g.length)) := by
  have h5 : ∀ x : Nat, bitsOf 5 (x % 32) = bitsOf 5 x := bitsOf_mod 5
  simp only [indexBits, groupIndexes, List.flatMap_map, h5, flatMap_bitsOf_shiftRight]

/-- A group's characters decode to its bytes: the whole bytes of their bit string are the group's bits (R128, R131). -/
theorem decodeChunk_groupChars (g : List Byte) : decodeChunk (groupChars g) = .ok g := by
  obtain ⟨b, hb, hbits⟩ := decodeChunk_of_map_b32Index (map_b32Index_groupChars g)
  have hsize : (groupIndexes g).length = groupSize g.length := by simp [groupIndexes]
  have hwhole : 5 * groupSize g.length / 8 = g.length := by unfold groupSize; omega
  have hcut : 5 * groupSize g.length = 8 * g.length + (5 * groupSize g.length - 8 * g.length) := by unfold groupSize; omega
  suffices byteBits b = byteBits g by rw [hb, byteBits_injective this]
  generalize 5 * groupSize g.length - 8 * g.length = fill at hcut
  calc byteBits b = (indexBits (groupIndexes g)).take (8 * g.length) := by rw [hbits, hsize, hwhole]
    _ = (bitsOf (8 * g.length + fill) (bytesValue g <<< fill)).take (8 * g.length) := by
        rw [indexBits_groupIndexes, hcut, Nat.add_sub_cancel_left]
    _ = bitsOf (8 * g.length) (bytesValue g) := by
        rw [bitsOf_add, List.take_left' (length_bitsOf _ _), Nat.shiftLeft_shiftRight]
    _ = byteBits g := (byteBits_eq g).symm

/-- A last group of 1 to 5 bytes lacks the whole padding. -/
theorem sub_groupSize_eq_encodedPads {n : Nat} (h1 : 0 < n) (h5 : n ≤ 5) : 8 - groupSize n = encodedPads n := by
  have h : ∀ m ≤ 5, 0 < m → 8 - groupSize m = encodedPads m := by decide
  exact h n h5 h1

/-- Standard base32 is the characters of the groups and the padding of the last one (R131). -/
theorem base32Groups_eq {n : Nat} : ∀ {b : List Byte}, n = (b.length + 4) / 5 →
    base32Groups n b = encodedChars n b ++ List.replicate (encodedPads b.length) padByte := by
  induction n with
  | zero =>
    intro b hn
    obtain rfl : b = [] := List.eq_nil_of_length_eq_zero (by omega)
    rfl
  | succ n ih =>
    intro b hn
    have hdrop : (b.drop 5).length = b.length - 5 := List.length_drop
    rw [base32Groups, base32Group_eq, ih (by omega), List.length_take, hdrop]
    rcases Nat.lt_or_ge 5 b.length with hmore | hlast
    · have hfull : 8 - groupSize (min 5 b.length) = 0 := by unfold groupSize; omega
      have hpads : encodedPads (b.length - 5) = encodedPads b.length := by
        rw [encodedPads, encodedPads, ← Nat.mod_eq_sub_mod hmore.le]
      rw [hfull, hpads, encodedChars]
      simp
    · obtain rfl : n = 0 := by omega
      have hnone : encodedPads (b.length - 5) = 0 := by rw [Nat.sub_eq_zero_of_le hlast]; rfl
      rw [hnone, Nat.min_eq_right hlast, sub_groupSize_eq_encodedPads (by omega) hlast]
      simp [encodedChars]

/-- The first chunk of the characters is the first group, and the rest is the other groups. -/
theorem take_drop_encodedChars {n : Nat} {b : List Byte} (hn : n + 1 = (b.length + 4) / 5) :
    (encodedChars (n + 1) b).take 8 = groupChars (b.take 5) ∧ (encodedChars (n + 1) b).drop 8 = encodedChars n (b.drop 5) := by
  have hlen : (groupChars (b.take 5)).length = groupSize (min 5 b.length) := by rw [length_groupChars, List.length_take]
  rw [encodedChars]
  rcases Nat.lt_or_ge 5 b.length with hmore | hlast
  · have h8 : (groupChars (b.take 5)).length = 8 := by rw [hlen]; unfold groupSize; omega
    exact ⟨List.take_left' h8, List.drop_left' h8⟩
  · have hle : (groupChars (b.take 5)).length ≤ 8 := by rw [hlen]; unfold groupSize; omega
    obtain rfl : n = 0 := by omega
    rw [encodedChars, List.append_nil]
    exact ⟨List.take_of_length_le hle, List.drop_of_length_le hle⟩

/-- The characters of all groups decode to the bytes, group by group (R127, R131). -/
theorem decodeChunks_encodedChars {n : Nat} : ∀ {b : List Byte}, n = (b.length + 4) / 5 →
    decodeChunks n (encodedChars n b) = .ok b := by
  induction n with
  | zero =>
    intro b hn
    obtain rfl : b = [] := List.eq_nil_of_length_eq_zero (by omega)
    rfl
  | succ n ih =>
    intro b hn
    obtain ⟨htake, hdrop⟩ := take_drop_encodedChars hn
    have hrest := ih (b := b.drop 5) (by rw [List.length_drop]; omega)
    rw [decodeChunks, htake, hdrop, decodeChunk_groupChars, hrest]
    exact congrArg Except.ok (List.take_append_drop 5 b)

theorem length_encodedChars {n : Nat} : ∀ {b : List Byte}, n = (b.length + 4) / 5 →
    (encodedChars n b).length = groupSize b.length := by
  induction n with
  | zero =>
    intro b hn
    rw [encodedChars, List.length_nil, groupSize]
    omega
  | succ n ih =>
    intro b hn
    have hdrop : (b.drop 5).length = b.length - 5 := List.length_drop
    rw [encodedChars, List.length_append, length_groupChars, ih (by omega), hdrop, List.length_take]
    unfold groupSize
    omega

theorem padByte_notMem_encodedChars (n : Nat) : ∀ b : List Byte, padByte ∉ encodedChars n b := by
  induction n with
  | zero => exact fun _ => List.not_mem_nil
  | succ n ih =>
    intro b
    rw [encodedChars, List.mem_append, not_or]
    exact ⟨padByte_notMem_of_map_b32Index (map_b32Index_groupChars _), ih _⟩

/-- The padding of standard base32 is a legal one (R5, R123). -/
theorem encodedPads_mem_padCounts (n : Nat) : encodedPads n ∈ padCounts := by
  have h : ∀ r < 5, (8 - groupSize r) % 8 ∈ padCounts := by decide
  exact h (n % 5) (Nat.mod_lt n (by decide))

/-- Characters without '=' and a legal padding pass every padding check (R122, R123, R124). -/
theorem base32Decode_append_replicate {d : List Byte} {p : Nat} (hd : padByte ∉ d) (hne : d ≠ []) (hp : p ∈ padCounts) :
    base32Decode (d ++ List.replicate p padByte) = decodeChunks ((d.length + 7) / 8) d := by
  have hdata := dataChars_append_replicate hd p
  have hlen := length_dataChars (d ++ List.replicate p padByte)
  have hpos : (d ++ List.replicate p padByte).length ≠ 0 := by simp [hne]
  rw [hdata] at hlen
  rw [dataChars] at hdata
  rw [base32Decode, if_neg hpos, hdata, ← hlen, trailingPads_append_replicate hd, if_neg (not_not_intro hp), if_neg hd]

/-! ### The completion of a DECODE -/

/-- A DECODE that succeeds writes KEY_LEN, KEY and STATUS (R133). -/
theorem complete_of_decode_ok {s : State} {k : List Byte} (hop : s.curOp = .decode)
    (h : decodeSnap s.params s.snap = .ok k) : s.complete =
      State.report 0 { s with keyLen := BitVec.ofNat 16 k.length, key := Memory.ofBytes (k.take (keyMax s.params)) } := by
  simp only [State.complete, hop, State.completeDecode, h]

/-- A DECODE that fails writes KEY_LEN and KEY with zeros and its error to STATUS (R133). -/
theorem complete_of_decode_error {s : State} {e : Err} (hop : s.curOp = .decode)
    (h : decodeSnap s.params s.snap = .error e) : s.complete = State.report e.code { s with keyLen := 0, key := [] } := by
  simp only [State.complete, hop, State.completeDecode, h]

/-- KEY as a key is written to it: the key's bytes, as many as KEY has, and zeros (R38, R133). -/
theorem State.keyByte_ofBytes {s : State} {k : List Byte} (hk : s.key = Memory.ofBytes (k.take (keyMax s.params))) (i : Nat) :
    s.keyByte i = if i < keyMax s.params then k.getD i 0 else 0 := by
  rw [State.keyByte, hk, Memory.read_ofBytes]
  by_cases hi : i < keyMax s.params
  · rw [if_pos hi, if_pos hi, List.getD_eq_getElem?_getD, List.getElem?_take_of_lt hi, List.getD_eq_getElem?_getD]
  · rw [if_neg hi, if_neg hi]

theorem keyByte_of_keyOk {s : State} (h : KeyOk s) {i : Nat} (hi : s.keyLen.toNat ≤ i) : s.keyByte i = 0 := by
  rw [State.keyByte, h.zeroPast i hi, ite_self]

/-- After a DECODE at legal parameters whose snapshot fits the block, KEY is zero from KEY_LEN on (R133). -/
theorem keyOk_complete_of_decode {s : State} (hop : s.curOp = .decode) (hp : s.params.Legal)
    (hfit : s.snap.secret.length ≤ s.params.secretMax) : KeyOk s.complete := by
  cases hd : decodeSnap s.params s.snap with
  | ok k =>
    rw [complete_of_decode_ok hop hd]
    exact .of_bytes hp (length_le_keyMax_of_base32Decode_ok (base32Decode_of_decodeSnap_ok hd) hfit) rfl rfl
  | error e =>
    rw [complete_of_decode_error hop hd]
    exact .of_empty rfl rfl

end Sys2Proof.Machine

open Sys2Proof Sys2Proof.Machine Sys2Proof.Safety

/-- Settles O14: the two ways a DECODE completes, and the invariant KeyOk of KEY past KEY_LEN. -/
theorem decodeCompletionWritesTheKey : Obligations.DecodeCompletionWritesTheKey := by
  intro s r hop hr
  obtain rfl : r = decodeSnap s.params s.snap := hr
  refine ⟨fun k hd => ?ok, fun e hd => ?error, fun hp hfit i => keyByte_of_keyOk (keyOk_complete_of_decode hop hp hfit)⟩
  case ok =>
    rw [complete_of_decode_ok hop hd]
    exact ⟨rfl, State.keyByte_ofBytes rfl⟩
  case error =>
    rw [complete_of_decode_error hop hd]
    exact ⟨rfl, State.keyByte_of_key_nil rfl⟩

/-- Settles O42: each range of bytes of the lookup is its part of the alphabet. -/
theorem theLookupInvertsTheAlphabet : Obligations.TheLookupInvertsTheAlphabet :=
  fun _ _ => ⟨getElem?_alphabet_of_b32Index, b32Index_of_getElem?_alphabet⟩

/-- Settles O43: a secret is its data characters and its trailing run, and the last data character is not '='. -/
theorem thePaddingCountIsTheLongestTrailingRun : Obligations.ThePaddingCountIsTheLongestTrailingRun := by
  intro s
  have hlen := length_dataChars s
  have hle : trailingPads s ≤ s.length := trailingPads_eq s ▸ (List.rtakeWhile_suffix _ s).length_le
  refine ⟨hle, fun i hlo hhi => ?run, fun hlt => ?longest⟩
  case run =>
    have hi : i - (s.length - trailingPads s) < trailingPads s := by omega
    calc s[i]? = (dataChars s ++ List.replicate (trailingPads s) padByte)[i]? := by rw [dataChars_append_pads]
      _ = some padByte := by
        rw [List.getElem?_append_right (by omega), hlen, List.getElem?_replicate_of_lt hi]
  case longest =>
    have hlast : s[s.length - trailingPads s - 1]? = (dataChars s).getLast? := by
      rw [List.getLast?_eq_getElem?, hlen, dataChars, List.getElem?_take_of_lt (by omega)]
    rw [hlast]
    exact getLast?_dataChars_ne_padByte s

/-- Settles O45: the chunks of the data characters, by induction on their number. -/
theorem theDecodedBytesAreTheWholeBytesOfTheBitString : Obligations.TheDecodedBytesAreTheWholeBytesOfTheBitString :=
  fun _ _ h => byteBits_of_decodeChunks_ok rfl (decodeChunks_of_base32Decode_ok h)

/-- Settles O47: standard base32 is the characters of its groups and a legal padding, and each group decodes to its bytes. -/
theorem standardBase32DecodesToItsBytes : Obligations.StandardBase32DecodesToItsBytes := by
  intro b hb
  have hchars := padByte_notMem_encodedChars ((b.length + 4) / 5) b
  have hlen := length_encodedChars (b := b) rfl
  have hpos : 0 < b.length := List.length_pos_iff.mpr hb
  have hne : encodedChars ((b.length + 4) / 5) b ≠ [] := by
    rw [← List.length_pos_iff, hlen, groupSize]
    omega
  have hchunks : (groupSize b.length + 7) / 8 = (b.length + 4) / 5 := by unfold groupSize; omega
  have hpads := encodedPads_mem_padCounts b.length
  rw [base32Encode, base32Groups_eq rfl, trailingPads_append_replicate hchars]
  refine ⟨hpads, ?_⟩
  rw [base32Decode_append_replicate hchars hne hpads, hlen, hchunks, decodeChunks_encodedChars rfl]

end

section
/-! The proofs of the family 42_code_generator: the slice, the counter, and the two ways a GENERATE completes. -/

namespace Sys2Proof.Machine

open Sys2Proof Sys2Proof.Safety

/-! ### The slice -/

/-- The slice of a sampled time (R151). -/
theorem toNat_sliceOf (t : Seconds) : (sliceOf t).toNat = (t.toNat / 30) % 2 ^ 32 := BitVec.toNat_ofNat _ _

/-- TSLICE other than the sentinel is the slice (R152). -/
theorem resolveSlice_of_tslice_ne_zero {n : Snap} (h : n.tslice ≠ 0) : resolveSlice n = n.tslice := if_pos h

/-- For the sentinel 0 the slice is that of the sampled time (R152). -/
theorem resolveSlice_of_tslice_eq_zero {n : Snap} (h : n.tslice = 0) : resolveSlice n = sliceOf n.time :=
  if_neg (not_not_intro h)

/-! ### The counter -/

/-- The bytes of a word widened to 64 bits are taken from the word itself. -/
theorem beBytes64_setWidth (w : Word) : beBytes64 (w.setWidth 64) = (List.range 8).map fun i => w.extractLsb' (8 * (7 - i)) 8 :=
  List.map_congr_left fun _ _ => BitVec.extractLsb'_setWidth_of_le (by omega)

/-- A word has no bit from 32 on. -/
theorem extractLsb'_eq_zero_of_le {w : Word} {i : Nat} (hi : 32 ≤ i) : w.extractLsb' i 8 = 0 := by
  refine extractLsb'_eq_of_toNat ?_
  have hw : w.toNat < 2 ^ i := w.isLt.trans_le (Nat.pow_le_pow_right (by decide) hi)
  rw [Nat.div_eq_of_lt hw]
  rfl

/-- The counter is `BEbytes64` of the widened slice: the high four bytes of that are 0 (R153). -/
theorem counterBytes_eq_beBytes64 (ts : Word) : counterBytes ts = beBytes64 (ts.setWidth 64) := by
  have hhigh : (List.range 4).map (fun i => ts.extractLsb' (8 * (7 - i)) 8) = zeros 4 :=
    List.eq_replicate_of_mem fun b hb => by
      obtain ⟨i, hi, rfl⟩ := List.mem_map.mp hb
      have hi : i < 4 := List.mem_range.mp hi
      exact extractLsb'_eq_zero_of_le (by omega)
  rw [beBytes64_setWidth, counterBytes, ← hhigh]
  rfl

theorem bytesValue_counterBytes (ts : Word) : bytesValue (counterBytes ts) = ts.toNat := by
  rw [counterBytes_eq_beBytes64, bytesValue_beBytes64, BitVec.toNat_setWidth_of_le (by decide)]

/-! ### The completion of a GENERATE -/

/-- CODE holds v mod 1000000 whole (R222). -/
theorem toNat_codeOf (v : BitVec 31) : (codeOf v).toNat = v.toNat % 1000000 := by
  rw [codeOf, BitVec.toNat_ofNat]
  omega

/-- A GENERATE whose secret decodes writes the registers R154 computes and STATUS, and leaves no key in ikey (R157). -/
theorem complete_of_generate_ok {s : State} {k : List Byte} (hop : s.curOp = .generate)
    (h : decodeSnap s.params s.snap = .ok k) : s.complete = State.report 0
      { s with gen := genRegsOf (resolveSlice s.snap) (hmacSha1 k (counterBytes (resolveSlice s.snap))), ikey := [] } := by
  simp only [State.complete, hop, State.completeGenerate, generateSnap, h, State.zeroIkey_loadIkey]

/-- A GENERATE that fails writes its results with zeros and its error to STATUS, and leaves no key in ikey (R157). -/
theorem complete_of_generate_error {s : State} {e : Err} (hop : s.curOp = .generate)
    (h : decodeSnap s.params s.snap = .error e) :
    s.complete = State.report e.code { s with gen := GenRegs.zero, ikey := [] } := by
  simp only [State.complete, hop, State.completeGenerate, generateSnap, h, State.zeroIkey_loadIkey]

end Sys2Proof.Machine

open Sys2Proof Sys2Proof.Machine Sys2Proof.Safety

/-- Settles O15: the two ways a GENERATE completes, with the digits of a code that CODE holds whole. -/
theorem generateCompletionWritesTheResults : Obligations.GenerateCompletionWritesTheResults := by
  intro s r hop hr
  obtain rfl : r = decodeSnap s.params s.snap := hr
  refine ⟨fun key ts mac v code digits hd hts hmac hv hcode hdigits => ?ok, fun e hd => ?error⟩
  case ok =>
    obtain rfl : ts = resolveSlice s.snap := hts
    subst hmac hv hcode hdigits
    rw [complete_of_generate_ok hop hd, genRegsOf, toNat_codeOf]
    rfl
  case error =>
    rw [complete_of_generate_error hop hd]
    rfl

/-- Settles O49: the counter's bytes as they are listed, as `BEbytes64`, and as a number. -/
theorem theCounterIsTheSliceBigEndian : Obligations.TheCounterIsTheSliceBigEndian :=
  fun ts => ⟨rfl, counterBytes_eq_beBytes64 ts, bytesValue_counterBytes ts⟩

/-- Settles O48: the slice with and without the sentinel. -/
theorem theSliceIsTsliceOrTheClocks : Obligations.TheSliceIsTsliceOrTheClocks :=
  fun n => ⟨resolveSlice_of_tslice_ne_zero, fun h => by rw [resolveSlice_of_tslice_eq_zero h, toNat_sliceOf]⟩

end

section
/-! The proofs of the family 43_hmac_sha1: the message schedule by index, the rotation bit by bit, the rounds of the compression and
the prepared key. -/

namespace Sys2Proof.Machine

open Sys2Proof

/-! ### The message schedule (R183), newest word first -/

@[simp] theorem length_extendSchedule (n : Nat) : ∀ w : List Word, (extendSchedule n w).length = w.length + n := by
  induction n with
  | zero => intro w; rfl
  | succ n ih =>
    intro w
    rw [extendSchedule, ih, List.length_cons]
    omega

/-- Extending a schedule puts `n` words before the words it had. -/
theorem getD_extendSchedule_add (n i : Nat) : ∀ w : List Word, (extendSchedule n w).getD (n + i) 0 = w.getD i 0 := by
  induction n generalizing i with
  | zero => intro w; rw [Nat.zero_add]; rfl
  | succ n ih =>
    intro w
    rw [extendSchedule, Nat.add_right_comm, Nat.add_assoc, ih, List.getD_cons_succ]

/-- Each of the new words is the rotated exclusive or of words 3, 8, 14 and 16 places older (R183). -/
theorem getD_extendSchedule_of_lt {n i : Nat} (hi : i < n) : ∀ w : List Word, (extendSchedule n w).getD i 0 =
    rotl 1 ((extendSchedule n w).getD (i + 3) 0 ^^^ (extendSchedule n w).getD (i + 8) 0 ^^^
      (extendSchedule n w).getD (i + 14) 0 ^^^ (extendSchedule n w).getD (i + 16) 0) := by
  induction n with
  | zero => exact absurd hi (Nat.not_lt_zero i)
  | succ n ih =>
    intro w
    rw [extendSchedule]
    obtain hlt | rfl := Nat.lt_succ_iff_lt_or_eq.mp hi
    · exact ih hlt _
    · -- the oldest new word: it and all the words it is made from stand in the extended list
      have hnew := getD_extendSchedule_add i 0
      rw [Nat.add_zero] at hnew
      simp only [hnew, getD_extendSchedule_add, List.getD_cons_zero, List.getD_cons_succ]

@[simp] theorem length_blockWords (x : List Byte) : (blockWords x).length = 16 := rfl

theorem getD_blockWords {t : Nat} (ht : t < 16) (x : List Byte) : (blockWords x).getD t 0 =
    be32 (byteAt x (4 * t)) (byteAt x (4 * t + 1)) (byteAt x (4 * t + 2)) (byteAt x (4 * t + 3)) := by
  simp [blockWords, ht]

@[simp] theorem length_schedule (x : List Byte) : (schedule x).length = 80 := by
  simp only [schedule, List.length_reverse, length_extendSchedule, length_blockWords]

/-- W[t] in the newest-first list that `schedule` reverses. -/
theorem getD_schedule {t : Nat} (ht : t < 80) (x : List Byte) :
    (schedule x).getD t 0 = (extendSchedule 64 (blockWords x).reverse).getD (79 - t) 0 := by
  rw [schedule, List.getD_reverse t (by simpa using ht)]
  simp

theorem getD_schedule_of_lt_16 {t : Nat} (ht : t < 16) (x : List Byte) : (schedule x).getD t 0 = (blockWords x).getD t 0 := by
  rw [getD_schedule (by omega), show 79 - t = 64 + (15 - t) by omega, getD_extendSchedule_add,
    List.getD_reverse _ (by rw [length_blockWords]; omega), length_blockWords, show 16 - 1 - (15 - t) = t by omega]

theorem getD_schedule_of_16_le {t : Nat} (h16 : 16 ≤ t) (h80 : t < 80) (x : List Byte) : (schedule x).getD t 0 =
    rotl 1 ((schedule x).getD (t - 3) 0 ^^^ (schedule x).getD (t - 8) 0 ^^^ (schedule x).getD (t - 14) 0 ^^^
      (schedule x).getD (t - 16) 0) := by
  have hback : ∀ d ≤ t,
      (schedule x).getD (t - d) 0 = (extendSchedule 64 (blockWords x).reverse).getD (79 - t + d) 0 := by
    intro d hd
    rw [getD_schedule (by omega), show 79 - (t - d) = 79 - t + d by omega]
  rw [getD_schedule h80, getD_extendSchedule_of_lt (by omega), hback 3 (by omega), hback 8 (by omega), hback 14 (by omega),
    hback 16 h16]

/-! ### Rotation and rounds (R8, R185) -/

/-- R8: ROTL_n moves bit i to bit (i + n) mod 32. The left shift holds it when it stays below 32, the right shift when it wraps. -/
theorem getLsbD_rotl {n i : Nat} (hn : n < 32) (hi : i < 32) (x : Word) :
    (rotl n x).getLsbD ((i + n) % 32) = x.getLsbD i := by
  rw [rotl, BitVec.getLsbD_or, BitVec.getLsbD_shiftLeft, BitVec.getLsbD_ushiftRight]
  obtain hstay | hwrap := Nat.lt_or_ge (i + n) 32
  · have hright : x.getLsbD (32 - n + (i + n)) = false := BitVec.getLsbD_of_ge _ _ (by omega)
    rw [Nat.mod_eq_of_lt hstay, hright, Nat.add_sub_cancel]
    simp [hstay]
  · have hmod : (i + n) % 32 = i + n - 32 := by omega
    have hright : 32 - n + (i + n - 32) = i := by omega
    have hleft : i + n - 32 < n := by omega
    rw [hmod, hright]
    simp [hleft]

/-- R185: the compression adds the working variables after all 80 rounds, given those before each round. -/
theorem compress_eq_add_of_vars (x : List Byte) (v : Nat → Hash)
    (hv : ∀ t < 80, v (t + 1) = sha1Round t ((schedule x).getD t 0) (v t)) : compress (v 0) x = (v 0).add (v 80) := by
  rw [compress, sha1Rounds_eq_of_vars (schedule x) 0 v, length_schedule, Nat.zero_add]
  intro t ht
  rw [Nat.zero_add]
  exact hv t (by simpa using ht)

/-! ### The prepared key (R188) -/

theorem keyPrep_of_length_le {k : List Byte} (h : k.length ≤ 64) : keyPrep k = k ++ zeros (64 - k.length) :=
  if_neg (Nat.not_lt.mpr h)

theorem keyPrep_of_lt_length {k : List Byte} (h : 64 < k.length) : keyPrep k = sha1 k ++ zeros 44 :=
  if_pos h

/-- Zeros that stay within 64 bytes are zeros the preparation writes anyway (R188, R192). -/
theorem keyPrep_append_zeros {k : List Byte} {n : Nat} (h : k.length + n ≤ 64) : keyPrep (k ++ zeros n) = keyPrep k := by
  have hlen : (k ++ zeros n).length = k.length + n := by simp [zeros]
  have hz : zeros n ++ zeros (64 - (k.length + n)) = zeros (64 - k.length) := by
    rw [zeros, zeros, zeros, List.replicate_append_replicate]
    congr 1
    omega
  rw [keyPrep_of_length_le (by omega), keyPrep_of_length_le (by omega), hlen, List.append_assoc, hz]

/-- R190: the mac depends on the key through the prepared key only. -/
theorem hmacSha1_congr {j k : List Byte} (h : keyPrep j = keyPrep k) (m : List Byte) : hmacSha1 j m = hmacSha1 k m := by
  rw [hmacSha1, hmacSha1, h]

/-! ### The table of R184, by its ranges of t -/

theorem sha1F_sha1K_of_lt_20 {t : Nat} (h : t < 20) (x y z : Word) :
    sha1F t x y z = (x &&& y) ^^^ (~~~x &&& z) ∧ sha1K t = 0x5A827999 :=
  ⟨if_pos h, if_pos h⟩

theorem sha1F_sha1K_of_lt_40 {t : Nat} (hl : 20 ≤ t) (h : t < 40) (x y z : Word) :
    sha1F t x y z = x ^^^ y ^^^ z ∧ sha1K t = 0x6ED9EBA1 := by
  simp [sha1F, sha1K, Nat.not_lt.mpr hl, h]

theorem sha1F_sha1K_of_lt_60 {t : Nat} (hl : 40 ≤ t) (h : t < 60) (x y z : Word) :
    sha1F t x y z = (x &&& y) ^^^ (x &&& z) ^^^ (y &&& z) ∧ sha1K t = 0x8F1BBCDC := by
  have h20 : ¬ t < 20 := by omega
  simp [sha1F, sha1K, h20, Nat.not_lt.mpr hl, h]

theorem sha1F_sha1K_of_60_le {t : Nat} (hl : 60 ≤ t) (x y z : Word) :
    sha1F t x y z = x ^^^ y ^^^ z ∧ sha1K t = 0xCA62C1D6 := by
  have h20 : ¬ t < 20 := by omega
  have h40 : ¬ t < 40 := by omega
  simp [sha1F, sha1K, h20, h40, Nat.not_lt.mpr hl]

end Sys2Proof.Machine

open Sys2Proof Sys2Proof.Machine Sys2Proof.Safety

/-- Settles O51: the length, the block's words and the recurrence of the extended schedule, read oldest first. -/
theorem theScheduleFollowsItsRecurrence : Obligations.TheScheduleFollowsItsRecurrence :=
  fun x => ⟨length_schedule x, fun _ ht => (getD_schedule_of_lt_16 ht x).trans (getD_blockWords ht x),
    fun _ h16 h80 => getD_schedule_of_16_le h16 h80 x⟩

/-- Settles O53: the rotation bit by bit, and the rounds by induction on the schedule. -/
theorem theCompressionRunsEightyRounds : Obligations.TheCompressionRunsEightyRounds := by
  refine ⟨fun n hn x i hi => getLsbD_rotl hn hi x, fun h x v h0 hv => ?_⟩
  rw [← h0]
  exact compress_eq_add_of_vars x v hv

/-- Settles O54: one case of the preparation for each clause. -/
theorem thePreparedKeyHas64Bytes : Obligations.ThePreparedKeyHas64Bytes :=
  fun k => ⟨length_keyPrep k, keyPrep_of_length_le, keyPrep_of_lt_length⟩

/-- Settles O56: both keys have the same prepared key. -/
theorem trailingZeroKeyBytesDoNotChangeTheMac : Obligations.TrailingZeroKeyBytesDoNotChangeTheMac :=
  fun _ m _ h => hmacSha1_congr (keyPrep_append_zeros h) m

/-- Settles O52: one lemma for each row of the table. -/
theorem roundFunctionsAndConstantsFollowTheTable : Obligations.RoundFunctionsAndConstantsFollowTheTable :=
  fun _ x y z _ => ⟨fun h => sha1F_sha1K_of_lt_20 (Nat.lt_succ_of_le h) x y z,
    fun hl h => sha1F_sha1K_of_lt_40 hl (Nat.lt_succ_of_le h) x y z,
    fun hl h => sha1F_sha1K_of_lt_60 hl (Nat.lt_succ_of_le h) x y z, fun hl => sha1F_sha1K_of_60_le hl x y z⟩

end

section
/-! The proofs of the family 44_truncation_modulo: the truncated value, the code and its six digits. -/

namespace Sys2Proof.Machine

open Sys2Proof Sys2Proof.Safety

/-! ### Dynamic truncation -/

/-- The offset is the low nibble of the last byte of the mac (R220). -/
theorem macOffset_eq_mod (mac : List Byte) : macOffset mac = (byteAt mac 19).toNat % 16 := by
  rw [macOffset, BitVec.toNat_and]
  exact Nat.and_two_pow_sub_one_eq_mod _ 4

/-- Dropping bit 31 leaves the remainder by 2^31 (R221). -/
theorem toNat_setWidth_and_mask31 (w : Word) : ((w &&& 0x7FFFFFFF).setWidth 31).toNat = w.toNat % 2 ^ 31 := by
  have hmask : (w &&& 0x7FFFFFFF).toNat = w.toNat % 2 ^ 31 := by
    rw [BitVec.toNat_and]
    exact Nat.and_two_pow_sub_one_eq_mod _ 31
  rw [BitVec.toNat_setWidth, hmask, Nat.mod_mod]

/-- The truncated value is the big-endian number at the offset without bit 31 (R221). -/
theorem toNat_truncate (mac : List Byte) :
    (truncate mac).toNat =
      ((byteAt mac (macOffset mac)).toNat * 2 ^ 24 + (byteAt mac (macOffset mac + 1)).toNat * 2 ^ 16 +
        (byteAt mac (macOffset mac + 2)).toNat * 2 ^ 8 + (byteAt mac (macOffset mac + 3)).toNat) % 2 ^ 31 := by
  simp only [truncate, toNat_setWidth_and_mask31, toNat_be32, Nat.reducePow]

/-! ### The six digits -/

@[simp] theorem length_format6 (code : Nat) : (format6 code).length = 6 := by
  rw [format6, List.length_map, List.length_range]

/-- A decimal digit fits its ASCII byte. -/
theorem toNat_asciiDigit (n : Nat) : (BitVec.ofNat 8 (0x30 + n % 10)).toNat = 0x30 + n % 10 := by
  rw [BitVec.toNat_ofNat]
  omega

/-- Each byte of `Format6` is the ASCII byte of a digit (R223). -/
theorem ascii_of_mem_format6 {code : Nat} {d : Byte} (h : d ∈ format6 code) : 0x30 ≤ d.toNat ∧ d.toNat ≤ 0x39 := by
  obtain ⟨i, -, rfl⟩ := List.mem_map.mp h
  rw [toNat_asciiDigit]
  omega

/-- The first `n` of the six digits of a code write its quotient by the place value left over: one digit more undoes one
division by 10. -/
theorem foldl_digits_eq_div {code : Nat} (hc : code < 10 ^ 6) {n : Nat} (hn : n ≤ 6) :
    (List.range n).foldl (fun acc i => acc * 10 + code / 10 ^ (5 - i) % 10) 0 = code / 10 ^ (6 - n) := by
  induction n with
  | zero => exact (Nat.div_eq_of_lt hc).symm
  | succ n ih =>
    have hquot : code / 10 ^ (6 - n) = code / 10 ^ (5 - n) / 10 := by
      rw [show 6 - n = 5 - n + 1 by omega, Nat.pow_succ, Nat.div_div_eq_div_mul]
    rw [List.range_succ, List.foldl_append, ih (by omega), List.foldl_cons, List.foldl_nil, hquot,
      show 6 - (n + 1) = 5 - n by omega]
    exact Nat.div_add_mod' _ 10

/-- The digits of a code, read as a decimal number, are the code (R223). -/
theorem digitsValue_format6 {code : Nat} (hc : code < 10 ^ 6) : digitsValue (format6 code) = code := by
  simp only [digitsValue, format6, List.foldl_map, toNat_asciiDigit, Nat.add_sub_cancel_left]
  rw [foldl_digits_eq_div hc le_rfl, Nat.sub_self, Nat.pow_zero, Nat.div_one]

end Sys2Proof.Machine

open Sys2Proof Sys2Proof.Machine Sys2Proof.Safety

/-- Settles O57: the nibble is at most 15, and the masked big-endian word has the value of its four bytes. -/
theorem truncationReadsFourBytesBigEndian : Obligations.TruncationReadsFourBytesBigEndian := by
  intro mac
  have hoff := macOffset_eq_mod mac
  exact ⟨hoff, by omega, toNat_truncate mac⟩

/-- Settles O59: length and range digit by digit, and the value by induction on the number of digits read. -/
theorem sixDigitsWriteTheCode : Obligations.SixDigitsWriteTheCode :=
  fun code h => ⟨length_format6 code, fun _ => ascii_of_mem_format6, digitsValue_format6 (Nat.lt_succ_of_le h)⟩

/-- Settles O58: CODE is wide enough for the remainder. -/
theorem theCodeIsTheExactRemainder : Obligations.TheCodeIsTheExactRemainder := by
  intro v
  rw [toNat_codeOf]
  exact ⟨rfl, Nat.le_of_lt_succ (Nat.mod_lt _ (by decide))⟩

end

section
/-! The proof of the family 60_exceptions: the decoding step as the five checks in their order, and the error of the first that
fails. -/

namespace Sys2Proof.Machine

open Sys2Proof Sys2Proof.Safety

/-- The characters of the alphabet are those that have an index (R120). -/
theorem mem_alphabet_iff_exists_b32Index {c : Byte} : c ∈ alphabet ↔ ∃ i, b32Index c = some i :=
  List.mem_iff_getElem?.trans
    (exists_congr fun _ => ⟨b32Index_of_getElem?_alphabet, getElem?_alphabet_of_b32Index⟩)

/-- Characters that all stand in the alphabet are those that have a list of indexes (R120). -/
theorem forall_mem_alphabet_iff_exists_map_b32Index {d : List Byte} :
    (∀ c ∈ d, c ∈ alphabet) ↔ ∃ v : List Nat, d.map b32Index = v.map some := by
  have hrange : d.map b32Index ∈ Set.range (List.map (some : Nat → Option Nat)) ↔ ∀ c ∈ d, c ∈ alphabet := by
    simp [Set.range_list_map, mem_alphabet_iff_exists_b32Index, eq_comm (a := some _)]
  exact hrange.symm.trans (exists_congr fun _ => eq_comm)

/-- Characters of the alphabet decode, chunk by chunk (R126, R127). -/
theorem exists_decodeChunks_ok (n : Nat) {d : List Byte} (h : ∀ c ∈ d, c ∈ alphabet) : ∃ b, decodeChunks n d = .ok b := by
  induction n generalizing d with
  | zero => exact ⟨[], rfl⟩
  | succ n ih =>
    obtain ⟨v, hv⟩ := forall_mem_alphabet_iff_exists_map_b32Index.mp fun c hc => h c (List.mem_of_mem_take (i := 8) hc)
    obtain ⟨b₁, h₁, -⟩ := decodeChunk_of_map_b32Index hv
    obtain ⟨b₂, h₂⟩ := ih fun c hc => h c (List.mem_of_mem_drop (i := 8) hc)
    exact ⟨b₁ ++ b₂, by rw [decodeChunks, h₁, h₂]⟩

/-- A character outside the alphabet is the error of the chunks that hold it (R126). -/
theorem decodeChunks_eq_invalidCharacter {n : Nat} {d : List Byte} (hn : n = (d.length + 7) / 8)
    (h : ∃ c ∈ d, c ∉ alphabet) : decodeChunks n d = .error .invalidCharacter := by
  cases hd : decodeChunks n d with
  | error e => rw [eq_invalidCharacter_of_decodeChunks_error hd]
  | ok b =>
    obtain ⟨c, hc, hout⟩ := h
    obtain ⟨v, hv, -⟩ := byteBits_of_decodeChunks_ok hn hd
    exact absurd (forall_mem_alphabet_iff_exists_map_b32Index.mpr ⟨v, hv⟩ c hc) hout

/-- The decoding step is R248's checks in their order: the model's chunks report a character outside the alphabet as they repack,
which is the same as a fifth check before the repacking. -/
theorem decodeSnap_eq_checks (p : Params) (n : Snap) :
    decodeSnap p n =
      if p.secretMax < n.len.toNat then .error .secretTooLong
      else if n.secret = [] then .error .emptySecret
      else if trailingPads n.secret ∉ padCounts then .error .invalidPaddingCount
      else if padByte ∈ dataChars n.secret then .error .invalidPaddingPlacement
      else if ∃ c ∈ dataChars n.secret, c ∉ alphabet then .error .invalidCharacter
      else decodeChunks (((dataChars n.secret).length + 7) / 8) (dataChars n.secret) := by
  have hchars (d : List Byte) : decodeChunks ((d.length + 7) / 8) d =
      if ∃ c ∈ d, c ∉ alphabet then .error .invalidCharacter else decodeChunks ((d.length + 7) / 8) d := by
    split
    next hout => exact decodeChunks_eq_invalidCharacter rfl hout
    next => rfl
  rw [← hchars, length_dataChars, decodeSnap, base32Decode]
  simp only [List.length_eq_zero_iff]
  rfl

end Sys2Proof.Machine

open Sys2Proof Sys2Proof.Machine Sys2Proof.Safety

/-- Settles O44: the decoding step as R248's checks, one case for each check that fails first and one where all pass. A misplaced
'=' also stands outside the alphabet, so it fails the last check too, but its own comes first. -/
theorem theFirstFailingCheckGivesTheError : Obligations.TheFirstFailingCheckGivesTheError := by
  unfold Obligations.TheFirstFailingCheckGivesTheError
  rw [show [0, 1, 3, 4, 6] = padCounts from rfl, show (0x3D : Byte) = padByte from rfl]
  have hpad : padByte ∉ alphabet := by decide
  refine ⟨fun p n => ?reported, fun s _ => ?errcode⟩
  case reported =>
    rw [decodeSnap_eq_checks]
    split_ifs with hlong hempty hcount hplace hout
    · simp [hlong]
    · simp [Nat.le_of_not_lt hlong, hempty]
    · have hex : ∃ c ∈ dataChars n.secret, c ∉ alphabet := ⟨padByte, hplace, hpad⟩
      simp [Nat.le_of_not_lt hlong, hempty, hcount, hplace, hex]
    · simp [Nat.le_of_not_lt hlong, hempty, hcount, hplace, hout]
    · have hin : ∀ c ∈ dataChars n.secret, c ∈ alphabet := by simpa using hout
      obtain ⟨k, hk⟩ := exists_decodeChunks_ok (((dataChars n.secret).length + 7) / 8) hin
      simpa [Nat.le_of_not_lt hlong, hempty, hcount, hplace, hk] using hin
    · simp [Nat.le_of_not_lt hlong, hempty, hcount]
  case errcode =>
    rw [errcode_complete, decodeSnap_eq_checks]
    split_ifs with hlong hempty hcount hplace hout
    case neg =>
      have hin : ∀ c ∈ dataChars s.snap.secret, c ∈ alphabet := by simpa using hout
      obtain ⟨k, hk⟩ := exists_decodeChunks_ok (((dataChars s.snap.secret).length + 7) / 8) hin
      rw [hk]
    all_goals rfl

end

section
/-! The proofs of the family 70_reset_and_hazards: what the two byte windows of an idle block read while their buffers hold nothing,
what a reset cycle leaves of the key material, and the time a GENERATE then samples. -/

namespace Sys2Proof.Machine

open Sys2Proof

/-- A word of the SECRET window reads 0 while SECRET holds nothing (R34, R62). -/
theorem busRdata_memRead_secret_of_nil {s : State} (hp : s.phase = .idle) (hs : s.secret = []) {off : BitVec 10}
    (h4 : off.toNat % 4 = 0) (h1 : 0x100 ≤ off.toNat) (h2 : off.toNat ≤ 0x1FC) : (memRead off s).busRdata = some 0 := by
  rw [busRdata_memRead_of_idle hp h4 (locate_secret off h1 h2)]
  simp only [State.readLoc, State.secretByte_of_secret_nil hs]
  rfl

/-- A word of the KEY window reads 0 while KEY holds nothing (R38, R62). -/
theorem busRdata_memRead_key_of_nil {s : State} (hp : s.phase = .idle) (hk : s.key = []) {off : BitVec 10}
    (h4 : off.toNat % 4 = 0) (h1 : 0x200 ≤ off.toNat) (h2 : off.toNat ≤ 0x2FC) : (memRead off s).busRdata = some 0 := by
  rw [busRdata_memRead_of_idle hp h4 (locate_key off h1 h2)]
  simp only [State.readLoc, State.keyByte_of_key_nil hk]
  rfl

/-- A reset cycle leaves an idle block with its three buffers empty and TSLICE at the sentinel 0 (R270, R272). -/
theorem resetCycle_buffers_nil (c : ClockCycle) (s : State) :
    (resetCycle c s).phase = .idle ∧ (resetCycle c s).secret = [] ∧ (resetCycle c s).key = [] ∧ (resetCycle c s).ikey = [] ∧
      (resetCycle c s).tslice = 0 := by
  rw [resetCycle_eq]
  exact ⟨rfl, rfl, rfl, rfl, rfl⟩

/-- A GENERATE issued to an idle block whose TSLICE is the sentinel 0 samples the time source (R102, R151). -/
theorem exec_generate_samples_time {s : State} (hp : s.phase = .idle) (hts : s.tslice = 0) (ie : Bool) :
    ∃ u, exec (.generate ie) s = .next u ∧ u.phase = .busy ∧ u.snap.tslice = 0 ∧ u.snap.time = s.timeS :=
  ⟨_, generateStartsWhenIdle ie s hp, rfl, hts, if_pos hts⟩

end Sys2Proof.Machine

open Sys2Proof Sys2Proof.Machine Sys2Proof.Safety

/-- Settles O31: the step is a reset cycle, which leaves an idle block with empty buffers and TSLICE 0; what the windows then read
and what the start of a GENERATE then samples follow from that. -/
theorem noKeyMaterialSurvivesReset : Obligations.NoKeyMaterialSurvivesReset := by
  intro s t c rest hi hr h
  obtain rfl : resetCycle c (s.beginCycle c rest) = t := Host.Outcome.next.inj ((step_of_reset hi hr).symm.trans h)
  obtain ⟨hp, hsecret, hkey, hikey, hts⟩ := resetCycle_buffers_nil c (s.beginCycle c rest)
  refine ⟨?secret, ?key, ?ikey, fun off h4 hoff => ?windows, hts, exec_generate_samples_time hp hts⟩
  case secret => simp [hsecret]
  case key => simp [hkey]
  case ikey => simp [hikey]
  case windows =>
    rcases hoff with ⟨h1, h2⟩ | ⟨h1, h2⟩
    · exact busRdata_memRead_secret_of_nil hp hsecret h4 h1 h2
    · exact busRdata_memRead_key_of_nil hp hkey h4 h1 h2

end
